-- ==== Sys2Proof/Word.lean ====
section
/-! DEFINITION. The widths of 00_scope.md R8: a byte, a nibble, a request word. -/

namespace Sys2Proof

/-- "A transmitted value is 8 bits wide" (R8). -/
abbrev Byte := BitVec 8

/-- A nibble, the "4-bit half of a byte" (R8). -/
abbrev Nibble := BitVec 4

/-- The 10 bits of a REQ10 request word (R71), bit 9 the most significant. -/
abbrev ReqBits := BitVec 10

end Sys2Proof
end

