-- ==== Sys2Proof/Syntax.lean ====
section
/-! DEFINITION. The instructions: one constructor per row of spec/opcode_table.json (four REQ10 requests, eight CMD8
command classes), the words a caller hands the block, and the pseudo-requests of R83. -/

namespace Sys2Proof

/-- The four requests of R71 and the eight command classes of R75. Every field has exactly the width its encoding
gives it; a don't-care field is kept, because the block carries it as given (R76, 93_implementation_defined.md U17). -/
inductive Instr where
  /-- INIT (R130). -/
  | init
  /-- TEARDOWN (R144). -/
  | teardown
  /-- SEND_CMD (R104): any byte. -/
  | sendCmd (value : Byte)
  /-- SEND_DATA (R105): any byte. -/
  | sendData (value : Byte)
  /-- CLEAR_DISPLAY (R172). -/
  | clearDisplay
  /-- RETURN_HOME (R173): bit 0 is a don't care. -/
  | returnHome (dontCare : BitVec 1)
  /-- ENTRY_MODE_SET (R174): I/D bit 1, S bit 0. -/
  | entryModeSet (increment shift : Bool)
  /-- DISPLAY_CONTROL (R175): D bit 2, C bit 1, B bit 0. -/
  | displayControl (display cursor blink : Bool)
  /-- CURSOR_DISPLAY_SHIFT (R176): S/C bit 3, R/L bit 2, bits 1:0 don't care. -/
  | cursorDisplayShift (displayShift right : Bool) (dontCare : BitVec 2)
  /-- FUNCTION_SET (R177): DL bit 4, N bit 3, F bit 2, bits 1:0 don't care. -/
  | functionSet (dataLength lines font : Bool) (dontCare : BitVec 2)
  /-- SET_CGRAM_ADDR (R179): ACG bits 5:0. -/
  | setCgramAddr (address : BitVec 6)
  /-- SET_DDRAM_ADDR (R178): ADD bits 6:0. -/
  | setDdramAddr (address : BitVec 7)
deriving DecidableEq, Repr, Inhabited

/-- A word the caller hands the block: a REQ10 request word (R71), or a command byte handed over by its name, the
pseudo-request `CMD w` of R83 (DESIGN CHOICE, log entry 6). -/
inductive ReqWord where
  | req10 (bits : ReqBits)
  | cmd8 (byte : Byte)
deriving DecidableEq, Repr, Inhabited

/-- What the decoder reads from a word. -/
inductive Decoded where
  | instr (i : Instr)
  /-- RESERVED(w) of R72. -/
  | reservedRequest (bits : ReqBits)
  /-- The byte 0x00, which "matches no class" (R75). -/
  | noClass
deriving DecidableEq, Repr, Inhabited

/-- The pseudo-requests of R83. They come from the software above the block; only their expansion reaches it. -/
inductive Pseudo where
  | cmd (word : Byte)
  | pos (x y : Nat)
  | clear
  | putc (char : Byte)
deriving DecidableEq, Repr, Inhabited

end Sys2Proof
end

