-- ==== Sys2Proof/WellFormed.lean ====
section
/-! DEFINITION. What is well formed. An `Instr` is well formed by its types: each field has exactly the width R71 and
R75 give it and every value of it is legal (R76, R84). A word is well formed when it names a request or a class. -/

namespace Sys2Proof

/-- Every instruction term is well formed: all field values of R71 and R75 are legal, and the types admit no other. -/
def Instr.wellFormed (i : Instr) : Bool :=
  match i with
  | .init | .teardown => true
  | .sendCmd _ | .sendData _ => true
  | .clearDisplay | .returnHome _ => true
  | .entryModeSet _ _ | .displayControl _ _ _ => true
  | .cursorDisplayShift _ _ _ | .functionSet _ _ _ _ => true
  | .setCgramAddr _ | .setDdramAddr _ => true

/-- R84: with bit 9 set every word is legal; with bit 9 clear only 0x000 and 0x001 are. A command byte is in a class
unless it is 0x00 (R75). -/
def ReqWord.wellFormed (w : ReqWord) : Bool :=
  match w with
  | .req10 bits => bits.getLsbD 9 || bits == 0x000#10 || bits == 0x001#10
  | .cmd8 byte => byte != 0x00#8

end Sys2Proof
end

