-- ==== Sys2Proof/Decode.lean ====
section
/-! DEFINITION. The decoder of R72 and R75, total on every word, and the encoder of R71 and R75; the expansion of the
pseudo-requests (R83); the host's numbering of a table word. -/

namespace Sys2Proof

/-- R72. Bit 9 selects a SEND, bit 8 gives RS, bits 7:0 are the byte; otherwise bits 8:0 are the control code. -/
def decodeReq10 (w : ReqBits) : Decoded :=
  if w.getLsbD 9 then
    if w.getLsbD 8 then .instr (.sendData (w.extractLsb' 0 8))
    else .instr (.sendCmd (w.extractLsb' 0 8))
  else if w.extractLsb' 0 9 = 0x000#9 then .instr .init
  else if w.extractLsb' 0 9 = 0x001#9 then .instr .teardown
  else .reservedRequest w

/-- R75. The class of a command byte "is given by its most significant set bit"; the bits below it are its fields. -/
def decodeCmd8 (b : Byte) : Decoded :=
  if b.getLsbD 7 then .instr (.setDdramAddr (b.extractLsb' 0 7))
  else if b.getLsbD 6 then .instr (.setCgramAddr (b.extractLsb' 0 6))
  else if b.getLsbD 5 then
    .instr (.functionSet (b.getLsbD 4) (b.getLsbD 3) (b.getLsbD 2) (b.extractLsb' 0 2))
  else if b.getLsbD 4 then
    .instr (.cursorDisplayShift (b.getLsbD 3) (b.getLsbD 2) (b.extractLsb' 0 2))
  else if b.getLsbD 3 then
    .instr (.displayControl (b.getLsbD 2) (b.getLsbD 1) (b.getLsbD 0))
  else if b.getLsbD 2 then .instr (.entryModeSet (b.getLsbD 1) (b.getLsbD 0))
  else if b.getLsbD 1 then .instr (.returnHome (b.extractLsb' 0 1))
  else if b.getLsbD 0 then .instr .clearDisplay
  else .noClass

/-- The decoder, total on every word. -/
def decode (w : ReqWord) : Decoded :=
  match w with
  | .req10 bits => decodeReq10 bits
  | .cmd8 byte => decodeCmd8 byte

/-- The word of an instruction, from the patterns of R71 and R75, most significant bits first. -/
def encode (i : Instr) : ReqWord :=
  match i with
  | .init => .req10 0b0000000000#10
  | .teardown => .req10 0b0000000001#10
  | .sendCmd v => .req10 (0b10#2 ++ v)
  | .sendData v => .req10 (0b11#2 ++ v)
  | .clearDisplay => .cmd8 0b00000001#8
  | .returnHome x => .cmd8 (0b0000001#7 ++ x)
  | .entryModeSet inc sh => .cmd8 (0b000001#6 ++ BitVec.ofBool inc ++ BitVec.ofBool sh)
  | .displayControl d c b =>
    .cmd8 (0b00001#5 ++ BitVec.ofBool d ++ BitVec.ofBool c ++ BitVec.ofBool b)
  | .cursorDisplayShift sc rl x => .cmd8 (0b0001#4 ++ BitVec.ofBool sc ++ BitVec.ofBool rl ++ x)
  | .functionSet dl n f x =>
    .cmd8 (0b001#3 ++ BitVec.ofBool dl ++ BitVec.ofBool n ++ BitVec.ofBool f ++ x)
  | .setCgramAddr a => .cmd8 (0b01#2 ++ a)
  | .setDdramAddr a => .cmd8 (0b1#1 ++ a)

/-- The request a queued word asks the block for; `none` for a reserved word. A command byte is handed over as
`CMD w`, that is SEND_CMD of it (R83), and 0x00, which is in no class, is a legal SEND_CMD operand (R76). -/
def requestOf (w : ReqWord) : Option Instr :=
  match decode w with
  | .instr i => some i
  | .noClass => some (.sendCmd 0x00#8)
  | .reservedRequest _ => none

/-- The word a number of the opcode table stands for: a row of one byte is a CMD8 byte, a wider row a REQ10 word
(10 bits). A number that does not fit the format is no word of it. -/
def tableWord (nbits w : Nat) : Option ReqWord :=
  if nbits ≤ 8 then
    if w < 256 then some (.cmd8 (BitVec.ofNat 8 w)) else none
  else
    if w < 1024 then some (.req10 (BitVec.ofNat 10 w)) else none

/-- What the decoder reads from a word of the opcode table, numbered as the table numbers its bits. -/
def decodeTableWord (nbits w : Nat) : Option Instr :=
  match tableWord nbits w with
  | none => none
  | some word =>
    match decode word with
    | .instr i => some i
    | .reservedRequest _ => none
    | .noClass => none

/-- R181 and R83: the byte of `position(x, y)`, defined for y ∈ {0, 1} and 0 ≤ x ≤ 0x3F, with DGRAM_BASE given. -/
def positionByte (dgramBase : Byte) (x y : Nat) : Option Byte :=
  if y ≤ 1 ∧ x ≤ 0x3F then
    some (dgramBase ||| (if y = 1 then 0x40#8 else 0x00#8) ||| BitVec.ofNat 8 x)
  else none

/-- The expansion of a pseudo-request (R83, with the values of R170): the SEND words that reach the block; `none` for
a POS outside its range, which "is outside the block" (R181, R203). -/
def expand (p : Pseudo) : Option (List ReqWord) :=
  match p with
  | .cmd w => some [encode (.sendCmd w)]
  | .pos x y =>
    match positionByte 0x80#8 x y with
    | some b => some [encode (.sendCmd b)]
    | none => none
  | .clear => some [encode (.sendCmd 0x01#8), encode (.sendCmd 0x80#8)]
  | .putc c => some [encode (.sendData c)]

end Sys2Proof
end

