-- ==== Sys2Proof/Config.lean ====
section
/-! DEFINITION. The construction inputs of the block (R6, R21 to R24), the parameters the spec leaves to the model (R7),
and the free values. -/

namespace Sys2Proof

/-- MODE (R2, R21). -/
inductive Mode where
  | fourBit
  | eightBit
deriving DecidableEq, Repr, Inhabited

/-- The logical lines RS, E, D0..D7 (00_scope.md section 6, "signal"). -/
inductive Signal where
  | rs | e | d0 | d1 | d2 | d3 | d4 | d5 | d6 | d7
deriving DecidableEq, Repr, Inhabited

/-- A physical pin identifier: a name with decidable equality, on which the model never computes
(R7, 92_eei_decisions.md D18). DESIGN CHOICE (log entry 2): names are drawn from the natural numbers. Safe. -/
structure PinId where
  name : Nat
deriving DecidableEq, Repr, Inhabited

/-- PINMAP (R23). An entry may be missing; INIT refuses a map that lacks a signal of DRV(MODE). -/
structure PinMap where
  rs : Option PinId
  e  : Option PinId
  d0 : Option PinId
  d1 : Option PinId
  d2 : Option PinId
  d3 : Option PinId
  d4 : Option PinId
  d5 : Option PinId
  d6 : Option PinId
  d7 : Option PinId
deriving DecidableEq, Repr, Inhabited

/-- GEOMETRY (R24): stored at construction, read by no rule of the block. -/
structure Geometry where
  columns : Nat
  rows    : Nat
deriving DecidableEq, Repr, Inhabited

/-- The Port's answer to one `PortCfg` or `PortWr` (R7, R11): `ok`, or the one failure that primitive has. -/
inductive PortAnswer where
  | ok
  | failed
deriving DecidableEq, Repr, Inhabited

/-- The plan of the Port's answers (R36: a parameter of the step, not state of the block), as plain data: the TRACE
indices whose primitive fails, and the last index whose answer is planned. Beyond it the answers are free (log entry 1). -/
structure PortPlan where
  fails : List Nat
  known : Nat
deriving DecidableEq, Repr, Inhabited

/-- CMDV, the "compile-time table of named bit flags" (R7, R170), kept as a parameter (92_eei_decisions.md D8). -/
structure CmdV where
  clearDisplay       : Byte
  returnHome         : Byte
  entryModeSet       : Byte
  idIncrement        : Byte
  entryShift         : Byte
  displayControl     : Byte
  dOn                : Byte
  cOn                : Byte
  bOn                : Byte
  cursorDisplayShift : Byte
  scDisplay          : Byte
  rlRight            : Byte
  functionSet        : Byte
  dl8Bit             : Byte
  n2Line             : Byte
  f5x10              : Byte
  setCgramAddr       : Byte
  setDdramAddr       : Byte
deriving DecidableEq, Repr, Inhabited

/-- FREE VALUE (log entry 1; R7, D29). The Port's answer to the primitive at a TRACE index that the plan in State does
not cover: "a free draw per operation", under no law. Safe. -/
opaque Config.portFree : Nat → PortAnswer

/-- FREE VALUE (log entry 3). The pin of a signal that PINMAP does not name: the spec gives none, and no run reaches a
state that asks for one, since INIT refuses such a map (R23, R204). Safe. -/
opaque Config.unmappedPin : Signal → PinId

/-- T_POWER_ON in milliseconds (R7, R236, D20): OPEN in the spec, a duty of the host before INIT; no rule of the block
reads it. -/
opaque Config.tPowerOnMs : Nat

/-- T_HOLD_MIN in milliseconds (R7, R251, D9): the lower bound of each strobe hold. -/
def Config.tHoldMinMs : Nat := 1

/-- DESIGN CHOICE (log entry 4): the construction input MODE of `State.reset`. Unsafe. -/
def Config.resetMode : Mode := .fourBit

/-- DESIGN CHOICE (log entry 4): the construction input PINMAP of `State.reset`, ten distinct pins. Unsafe. -/
def Config.resetPinMap : PinMap where
  rs := some ⟨0⟩
  e  := some ⟨1⟩
  d0 := some ⟨2⟩
  d1 := some ⟨3⟩
  d2 := some ⟨4⟩
  d3 := some ⟨5⟩
  d4 := some ⟨6⟩
  d5 := some ⟨7⟩
  d6 := some ⟨8⟩
  d7 := some ⟨9⟩

/-- DESIGN CHOICE (log entry 4): the construction input GEOMETRY of `State.reset`. Unsafe. -/
def Config.resetGeometry : Geometry := ⟨16, 2⟩

end Sys2Proof
end

