-- ==== Sys2Proof/Machine/State.lean ====
section
/-! DEFINITION. The block's state as plain data (10_state.md R20 to R37), the Port primitives as data (R11), the reasons
a step can stop, and the state after construction (R37). -/

namespace Sys2Proof.Machine

/-- A level `PortWr` can drive: "high|low" (R10, R11). -/
inductive Drive where
  | low
  | high
deriving DecidableEq, Repr, Inhabited

/-- A level as LVL holds it: L, H, or X, a level the model does not know (R10, D21). -/
inductive Level where
  | low
  | high
  | unknown
deriving DecidableEq, Repr, Inhabited

/-- LVL (R29): one level per signal. The entries of signals outside DRV(MODE) are never written. -/
structure Levels where
  rs : Level
  e  : Level
  d0 : Level
  d1 : Level
  d2 : Level
  d3 : Level
  d4 : Level
  d5 : Level
  d6 : Level
  d7 : Level
deriving DecidableEq, Repr, Inhabited

/-- PHASE (R26). -/
inductive Phase where
  | uninit
  | ready
  | released
deriving DecidableEq, Repr, Inhabited

/-- The two failures of a Port primitive (R200 to R202). -/
inductive ErrKind where
  | configurationError
  | ioError
deriving DecidableEq, Repr, Inhabited

/-- SEQ (R27), the sequencer's step register; `abort` carries the failure's kind and its TRACE index (R131). -/
inductive Seq where
  | idle
  | s1 (i : Nat)
  | s2
  | s3
  | s4
  | s5
  | s6
  | s7
  | s8Clear
  | s8Pos
  | s8Mark
  | done
  | abort (kind : ErrKind) (j : Nat)
deriving DecidableEq, Repr, Inhabited

/-- An event of TRACE (R12, R30): a failing primitive is in it with its failure. `PortRel` and `Hold` never fail. -/
inductive Event where
  | cfg (p : PinId) (answer : PortAnswer)
  | wr (p : PinId) (l : Drive) (answer : PortAnswer)
  | rel (p : PinId)
  | hold
deriving DecidableEq, Repr, Inhabited

/-- BUS (R31, R80): the driven data lines, D7 first. -/
inductive Bus where
  | bus4 (d7 d6 d5 d4 : Level)
  | bus8 (d7 d6 d5 d4 d3 d2 d1 d0 : Level)
deriving DecidableEq, Repr, Inhabited

/-- A latch event (R31). -/
inductive Latch where
  | latch (rs : Level) (bus : Bus)
  | maybeLatch (rs : Level) (bus : Bus)
deriving DecidableEq, Repr, Inhabited

/-- The CursorState record (R32). -/
structure CursorState where
  row     : Nat
  column  : Nat
  isClear : Bool
deriving DecidableEq, Repr, Inhabited

/-- The reasons of `Refused` (R200, R204). They are results of a request, not stops of the model. -/
inductive RefuseReason where
  | notReady
  | invalidConfig
  | reservedRequest
deriving DecidableEq, Repr, Inhabited

/-- RESULT (R33, R200); `j` is the TRACE index, counted from 1, of the failing primitive (R30). -/
inductive Result where
  | ok
  | initError (kind : ErrKind) (j : Nat)
  | ioError (j : Nat)
  | refused (reason : RefuseReason)
deriving DecidableEq, Repr, Inhabited

/-- The machine's state: MODE to GEOMETRY are the construction inputs (R21 to R24), PHASE to RESULT the dynamic state
(R26 to R33); `requests` and `port` are the model's own (log entries 5 and 1). CURSOR and RESULT have "no value" at
construction (R37), which is the spec's own state. -/
structure State where
  mode     : Mode
  pinmap   : PinMap
  geometry : Geometry
  phase    : Phase
  seq      : Seq
  claimed  : List PinId
  levels   : Levels
  trace    : List Event
  latch    : List Latch
  cursor   : Option CursorState
  result   : Option Result
  /-- The words the caller has issued and the block has not taken yet, the next one first (R25, R20). -/
  requests : List ReqWord
  /-- The Port's planned answers (R36, D29). -/
  port     : PortPlan
deriving DecidableEq, Repr, Inhabited

/-- A Port primitive as an instruction of the block's fixed program (R11), on a logical signal. `PortRel` is not among
them: it is issued only for the pins in CLAIMED (R142, R144). -/
inductive Prim where
  | cfg (sg : Signal)
  | wr (sg : Signal) (l : Drive)
  | hold
deriving DecidableEq, Repr, Inhabited

/-- How a run of primitives ends (R206): all done, or at the first failure, with its kind, its TRACE index and the
state the failure leaves. -/
inductive Run where
  | ok (s : State)
  | fail (kind : ErrKind) (j : Nat) (s : State)
deriving DecidableEq, Repr, Inhabited

/-- Why the model can stop with a fault. -/
inductive Fault where
  /-- CURSOR is read before it holds a value: "a model's read of it before then faults" (R32, D25). Raised by
  `State.readCursor` only; no request reads CURSOR, so no step ends in it. Safe. -/
  | cursorHasNoValue
deriving DecidableEq, Repr, Inhabited

/-- Why the model can refuse an instruction. The spec's own refusals (R204) are results, not these. -/
inductive Refusal where
  /-- An instruction whose meaning is not written; raised by an arm of `exec` only. Every instruction has its meaning,
  so no arm raises it. Safe. -/
  | notModelled (mnemonic : String)
deriving DecidableEq, Repr, Inhabited

/-- Every level X (R37). -/
def Levels.allUnknown : Levels :=
  ⟨.unknown, .unknown, .unknown, .unknown, .unknown, .unknown, .unknown, .unknown, .unknown, .unknown⟩

/-- A newly constructed block (R37, R230) with its three construction inputs (R6). No request is queued and no answer
of the Port is planned (DESIGN CHOICE, log entries 5 and 1). -/
def State.construct (mode : Mode) (pinmap : PinMap) (geometry : Geometry) : State where
  mode     := mode
  pinmap   := pinmap
  geometry := geometry
  phase    := .uninit
  seq      := .idle
  claimed  := []
  levels   := Levels.allUnknown
  trace    := []
  latch    := []
  cursor   := none
  result   := none
  requests := []
  port     := ⟨[], 0⟩

/-- The machine right after reset, which is construction (R230). The three construction inputs are the caller's; the
model names one choice of them (DESIGN CHOICE, log entry 4). -/
def State.reset : State :=
  State.construct Config.resetMode Config.resetPinMap Config.resetGeometry

end Sys2Proof.Machine
end

