-- ==== Sys2Proof/Machine/Operands.lean ====
section
/-! DEFINITION. Operand forms: DRV(MODE) and PINMAP (R22, R23), levels of bits, the nibble split (R78), bus words (R80),
the primitive lists of the micro-operations (R100 to R103), and the command bytes (R170 to R181). -/

namespace Sys2Proof.Machine

/-- DRV(MODE), the signals the block configures, writes and releases, in order (R22). -/
def drv (m : Mode) : List Signal :=
  match m with
  | .fourBit => [.rs, .e, .d4, .d5, .d6, .d7]
  | .eightBit => [.rs, .e, .d0, .d1, .d2, .d3, .d4, .d5, .d6, .d7]

/-- PINMAP's entry for a signal (R23). -/
def pinEntry (pm : PinMap) (sg : Signal) : Option PinId :=
  match sg with
  | .rs => pm.rs
  | .e  => pm.e
  | .d0 => pm.d0
  | .d1 => pm.d1
  | .d2 => pm.d2
  | .d3 => pm.d3
  | .d4 => pm.d4
  | .d5 => pm.d5
  | .d6 => pm.d6
  | .d7 => pm.d7

/-- valid(PINMAP, MODE) of R23: every signal of DRV(MODE) has an entry and no two share a pin; entries of signals
outside DRV(MODE) are ignored. -/
def validPinMap (pm : PinMap) (m : Mode) : Bool :=
  (drv m).all (fun sg => (pinEntry pm sg).isSome) && decide (((drv m).map (pinEntry pm)).Nodup)

/-- LVL[s] (R29). -/
def levelAt (lv : Levels) (sg : Signal) : Level :=
  match sg with
  | .rs => lv.rs
  | .e  => lv.e
  | .d0 => lv.d0
  | .d1 => lv.d1
  | .d2 => lv.d2
  | .d3 => lv.d3
  | .d4 => lv.d4
  | .d5 => lv.d5
  | .d6 => lv.d6
  | .d7 => lv.d7

/-- LVL[s] <- l (R29). -/
def setLevelAt (lv : Levels) (sg : Signal) (l : Level) : Levels :=
  match sg with
  | .rs => { lv with rs := l }
  | .e  => { lv with e := l }
  | .d0 => { lv with d0 := l }
  | .d1 => { lv with d1 := l }
  | .d2 => { lv with d2 := l }
  | .d3 => { lv with d3 := l }
  | .d4 => { lv with d4 := l }
  | .d5 => { lv with d5 := l }
  | .d6 => { lv with d6 := l }
  | .d7 => { lv with d7 := l }

/-- The level a driven line is at (R10). -/
def driveLevel (d : Drive) : Level :=
  match d with
  | .low => .low
  | .high => .high

/-- `b ? H : L`, as R101 to R103 write it. -/
def driveOf (b : Bool) : Drive := if b then .high else .low

/-- The high nibble `v >> 4` (R78). -/
def highNibble (v : Byte) : Nibble := v.extractLsb' 4 4

/-- The low nibble `v & 0xF` (R78). -/
def lowNibble (v : Byte) : Nibble := v.extractLsb' 0 4

/-- BUS of R31: the levels of the driven data lines, D7 first. -/
def busOf (m : Mode) (lv : Levels) : Bus :=
  match m with
  | .fourBit => .bus4 lv.d7 lv.d6 lv.d5 lv.d4
  | .eightBit => .bus8 lv.d7 lv.d6 lv.d5 lv.d4 lv.d3 lv.d2 lv.d1 lv.d0

/-- The levels of a bus word, D7 first. -/
def busLevels (b : Bus) : List Level :=
  match b with
  | .bus4 d7 d6 d5 d4 => [d7, d6, d5, d4]
  | .bus8 d7 d6 d5 d4 d3 d2 d1 d0 => [d7, d6, d5, d4, d3, d2, d1, d0]

/-- Levels read as an unsigned number, most significant first, onto the number read so far; `none` when one is X. -/
def levelsValue (acc : Nat) (ls : List Level) : Option Nat :=
  match ls with
  | [] => some acc
  | .low :: rest => levelsValue (2 * acc) rest
  | .high :: rest => levelsValue (2 * acc + 1) rest
  | .unknown :: _ => none

/-- R80: "the data lines read as an unsigned number, D7 most significant, when no line is X". -/
def busValue (b : Bus) : Option Nat := levelsValue 0 (busLevels b)

/-- `Strobe()` (R100): E high, hold, E low, hold. -/
def strobePrims : List Prim := [.wr .e .high, .hold, .wr .e .low, .hold]

/-- `PutNibble(n)` (R101): D(4+k) gets bit k, D4 first (R55, D2). -/
def putNibblePrims (n : Nibble) : List Prim :=
  [.wr .d4 (driveOf (n.getLsbD 0)), .wr .d5 (driveOf (n.getLsbD 1)),
   .wr .d6 (driveOf (n.getLsbD 2)), .wr .d7 (driveOf (n.getLsbD 3))]

/-- `PutByte(v)` (R102): Di gets bit i, D0 first (R53, D2). -/
def putBytePrims (v : Byte) : List Prim :=
  [.wr .d0 (driveOf (v.getLsbD 0)), .wr .d1 (driveOf (v.getLsbD 1)),
   .wr .d2 (driveOf (v.getLsbD 2)), .wr .d3 (driveOf (v.getLsbD 3)),
   .wr .d4 (driveOf (v.getLsbD 4)), .wr .d5 (driveOf (v.getLsbD 5)),
   .wr .d6 (driveOf (v.getLsbD 6)), .wr .d7 (driveOf (v.getLsbD 7))]

/-- `SendByte(v, asData)` (R103): RS once, then one 8-bit transfer or two 4-bit transfers, high nibble first (R54). -/
def sendBytePrims (m : Mode) (v : Byte) (asData : Bool) : List Prim :=
  .wr .rs (driveOf asData) ::
    match m with
    | .eightBit => putBytePrims v ++ strobePrims
    | .fourBit =>
      putNibblePrims (highNibble v) ++ strobePrims ++ putNibblePrims (lowNibble v) ++ strobePrims

/-- The values of R170. PRESUMED (log entry 8): the spec gives them from general knowledge. Unsafe. -/
def cmdvTable : CmdV where
  clearDisplay       := 0x01#8
  returnHome         := 0x02#8
  entryModeSet       := 0x04#8
  idIncrement        := 0x02#8
  entryShift         := 0x01#8
  displayControl     := 0x08#8
  dOn                := 0x04#8
  cOn                := 0x02#8
  bOn                := 0x01#8
  cursorDisplayShift := 0x10#8
  scDisplay          := 0x08#8
  rlRight            := 0x04#8
  functionSet        := 0x20#8
  dl8Bit             := 0x10#8
  n2Line             := 0x08#8
  f5x10              := 0x04#8
  setCgramAddr       := 0x40#8
  setDdramAddr       := 0x80#8

/-- Step 4's byte (R135): big-font and N-line always, data-length only in EightBit (R136). -/
def initFunctionSet (c : CmdV) (m : Mode) : Byte :=
  c.functionSet ||| c.f5x10 ||| c.n2Line ||| (if m = .eightBit then c.dl8Bit else 0x00#8)

/-- Step 5's byte (R137): display on, cursor on, blink absent. -/
def initDisplayControl (c : CmdV) : Byte := c.displayControl ||| c.dOn ||| c.cOn

/-- Step 6's byte (R138): increment on write, no shift. -/
def initEntryMode (c : CmdV) : Byte := c.entryModeSet ||| c.idIncrement

/-- Step 7's byte (R139): shift-right direction, S/C zero. -/
def initShift (c : CmdV) : Byte := c.cursorDisplayShift ||| c.rlRight

/-- Step 8's second byte (R140): position(0, 0). -/
def initPosition (c : CmdV) : Byte := c.setDdramAddr ||| 0x00#8

/-- One bit as a byte, for the shifts of R174 to R177. -/
def bitByte (b : Bool) : Byte := (BitVec.ofBool b).setWidth 8

/-- R172. -/
def clearDisplayByte : Byte := 0x01#8

/-- R173: 0x02, or 0x03 with the don't-care bit set; the block does not clear it. -/
def returnHomeByte (x : BitVec 1) : Byte := 0x02#8 ||| x.setWidth 8

/-- R174: `0x04 | I<<1 | S`. -/
def entryModeSetByte (inc sh : Bool) : Byte := 0x04#8 ||| bitByte inc <<< 1 ||| bitByte sh

/-- R175: `0x08 | D<<2 | C<<1 | B`. -/
def displayControlByte (d c b : Bool) : Byte :=
  0x08#8 ||| bitByte d <<< 2 ||| bitByte c <<< 1 ||| bitByte b

/-- R176: `0x10 | SC<<3 | RL<<2`, the don't-care bits carried as given. -/
def cursorDisplayShiftByte (sc rl : Bool) (x : BitVec 2) : Byte :=
  0x10#8 ||| bitByte sc <<< 3 ||| bitByte rl <<< 2 ||| x.setWidth 8

/-- R177: `0x20 | DL<<4 | N<<3 | F<<2`, the don't-care bits carried as given (U17). -/
def functionSetByte (dl n f : Bool) (x : BitVec 2) : Byte :=
  0x20#8 ||| bitByte dl <<< 4 ||| bitByte n <<< 3 ||| bitByte f <<< 2 ||| x.setWidth 8

/-- R179: `0x40 | ACG`. -/
def setCgramAddrByte (a : BitVec 6) : Byte := 0x40#8 ||| a.setWidth 8

/-- R178: `0x80 | ADD`. -/
def setDdramAddrByte (a : BitVec 7) : Byte := 0x80#8 ||| a.setWidth 8

end Sys2Proof.Machine
end

