-- ==== Sys2Proof/Machine/Ops.lean ====
section
/-! DEFINITION. The named operations on the state: its updates, the Port primitives with their effect on LVL, TRACE and
LATCH (R11, R28 to R31), running primitives up to the first failure (R206), and the failure paths (R204, R207, R208). -/

namespace Sys2Proof.Machine

/-- Append one event to TRACE (R30). -/
def State.emit (s : State) (ev : Event) : State := { s with trace := s.trace ++ [ev] }

/-- LVL <- lv. -/
def State.setLevels (s : State) (lv : Levels) : State := { s with levels := lv }

/-- LATCH <- LATCH ++ ls (R31). -/
def State.addLatch (s : State) (ls : List Latch) : State := { s with latch := s.latch ++ ls }

/-- CLAIMED <- ps. -/
def State.setClaimed (s : State) (ps : List PinId) : State := { s with claimed := ps }

/-- PHASE <- p. -/
def State.setPhase (s : State) (p : Phase) : State := { s with phase := p }

/-- SEQ <- q. -/
def State.setSeq (s : State) (q : Seq) : State := { s with seq := q }

/-- CURSOR <- c. -/
def State.setCursor (s : State) (c : CursorState) : State := { s with cursor := some c }

/-- RESULT <- r. -/
def State.setResult (s : State) (r : Result) : State := { s with result := some r }

/-- The queue of requests the caller still has for the block. -/
def State.setRequests (s : State) (ws : List ReqWord) : State := { s with requests := ws }

/-- `pin(s)` (R11). A signal without an entry has a free pin (log entry 3); INIT refuses such a map (R23). -/
def State.pin (s : State) (sg : Signal) : PinId :=
  (pinEntry s.pinmap sg).getD (Config.unmappedPin sg)

/-- The pins of PINMAP[DRV(MODE)] (R51), in DRV's order. -/
def State.drvPins (s : State) : List PinId := (drv s.mode).map s.pin

/-- The Port's answer to the primitive at TRACE index `j` (R7, D29): as planned, else free (log entry 1). -/
def State.portAnswer (s : State) (j : Nat) : PortAnswer :=
  if j ∈ s.port.fails then .failed
  else if j ≤ s.port.known then .ok
  else Config.portFree j

/-- The TRACE index the next primitive gets: positions are "numbered from 1" (R30). -/
def State.nextIndex (s : State) : Nat := s.trace.length + 1

/-- A read of CURSOR, which faults while it has no value (R32, D25). No request reads it. -/
def State.readCursor (s : State) : Except Fault CursorState :=
  match s.cursor with
  | some c => .ok c
  | none => .error .cursorHasNoValue

/-- What a `PortWr` that returns `ok` appends to LATCH, from LVL as it stood just before the write (R31). -/
def latchOnWrite (s : State) (sg : Signal) (d : Drive) : List Latch :=
  if sg = .e ∧ d = .low then
    match s.levels.e with
    | .high => [.latch s.levels.rs (busOf s.mode s.levels)]
    | .unknown => [.maybeLatch s.levels.rs (busOf s.mode s.levels)]
    | .low => []
  else []

/-- `PortCfg(pin(sg))` (R11): on `ok` the pin is appended to CLAIMED (R28) and LVL is unchanged (R29). -/
def portCfg (sg : Signal) (s : State) : Run :=
  match s.portAnswer s.nextIndex with
  | .ok => .ok ((s.emit (.cfg (s.pin sg) .ok)).setClaimed (s.claimed ++ [s.pin sg]))
  | .failed => .fail .configurationError s.nextIndex (s.emit (.cfg (s.pin sg) .failed))

/-- `PortWr(pin(sg), d)` (R11): on `ok` LVL[sg] is the level driven (R29) and LATCH follows R31; on IOError LVL[sg] is X. -/
def portWr (sg : Signal) (d : Drive) (s : State) : Run :=
  match s.portAnswer s.nextIndex with
  | .ok =>
    .ok (((s.emit (.wr (s.pin sg) d .ok)).addLatch (latchOnWrite s sg d)).setLevels
      (setLevelAt s.levels sg (driveLevel d)))
  | .failed =>
    .fail .ioError s.nextIndex
      ((s.emit (.wr (s.pin sg) d .failed)).setLevels (setLevelAt s.levels sg .unknown))

/-- LVL with X at every listed signal whose pin is `p`. -/
def forgetPin (s : State) (p : PinId) (sgs : List Signal) (lv : Levels) : Levels :=
  match sgs with
  | [] => lv
  | sg :: rest =>
    forgetPin s p rest (if s.pin sg = p then setLevelAt lv sg .unknown else lv)

/-- `PortRel(p)`, always `ok` (R11), with LVL[signal of p] <- X (R29, R142): the signals of DRV(MODE) whose pin is `p`. -/
def portRel (p : PinId) (s : State) : State :=
  (s.emit (.rel p)).setLevels (forgetPin s p (drv s.mode) s.levels)

/-- `Hold()` (R11, R250): an event, always completes. -/
def hold (s : State) : State := s.emit .hold

/-- One primitive of the block's program. -/
def runPrim (p : Prim) (s : State) : Run :=
  match p with
  | .cfg sg => portCfg sg s
  | .wr sg d => portWr sg d s
  | .hold => .ok (hold s)

/-- Primitives in program order, one at a time, up to the first failure (R13, R62, R206). -/
def runPrims (ps : List Prim) (s : State) : Run :=
  match ps with
  | [] => .ok s
  | p :: rest =>
    match runPrim p s with
    | .ok t => runPrims rest t
    | .fail k j t => .fail k j t

/-- `PortRel` for each of a list of pins, in order. -/
def releasePins (ps : List PinId) (s : State) : State :=
  match ps with
  | [] => s
  | p :: rest => releasePins rest (portRel p s)

/-- "for p in CLAIMED, in claim order: PortRel(p); LVL[signal of p] <- X", then CLAIMED <- [] (R142, R144). -/
def releaseAll (s : State) : State := (releasePins s.claimed s).setClaimed []

/-- A refusal (R204): only RESULT changes. -/
def refuse (r : RefuseReason) (s : State) : State := s.setResult (.refused r)

/-- The failure path of a SEND (R208): IOError(j) in RESULT and nothing else. -/
def sendFailed (j : Nat) (s : State) : State := s.setResult (.ioError j)

/-- The failure path of INIT, `Abort(kind, j)` (R142, R207). There is no return from it (R211). -/
def initAbort (k : ErrKind) (j : Nat) (s : State) : State :=
  (((releaseAll s).setPhase .released).setSeq .idle).setResult (.initError k j)

/-- SEND_CMD and SEND_DATA (R104, R105), and by R172 to R179 every command class. -/
def sendRequest (v : Byte) (asData : Bool) (s : State) : State :=
  if s.phase = .ready then
    match runPrims (sendBytePrims s.mode v asData) s with
    | .ok t => t.setResult .ok
    | .fail _ j t => sendFailed j t
  else refuse .notReady s

/-- Take the next word of the request stream: the word and the state without it. -/
def takeRequest (s : State) : Option (ReqWord × State) :=
  match s.requests with
  | [] => none
  | w :: rest => some (w, s.setRequests rest)

/-- Put a word in front of the request stream. -/
def pushRequest (w : ReqWord) (s : State) : State := s.setRequests (w :: s.requests)

end Sys2Proof.Machine
end

