-- ==== Sys2Proof/Machine/Commands.lean ====
section
/-! DEFINITION. The eight command classes (42_command_words.md): each is SEND_CMD of its byte. -/

namespace Sys2Proof.Machine

/-- CLEAR_DISPLAY (R172): `SEND_CMD(0x01)`. -/
def execClearDisplay (s : State) : Host.Outcome State Fault Refusal :=
  .next (sendRequest clearDisplayByte false s)

/-- RETURN_HOME (R173): `SEND_CMD(0x02)` (or 0x03). -/
def execReturnHome (dontCare : BitVec 1) (s : State) : Host.Outcome State Fault Refusal :=
  .next (sendRequest (returnHomeByte dontCare) false s)

/-- ENTRY_MODE_SET (R174). -/
def execEntryModeSet (increment shift : Bool) (s : State) : Host.Outcome State Fault Refusal :=
  .next (sendRequest (entryModeSetByte increment shift) false s)

/-- DISPLAY_CONTROL (R175). -/
def execDisplayControl (display cursor blink : Bool) (s : State) : Host.Outcome State Fault Refusal :=
  .next (sendRequest (displayControlByte display cursor blink) false s)

/-- CURSOR_DISPLAY_SHIFT (R176). -/
def execCursorDisplayShift (displayShift right : Bool) (dontCare : BitVec 2) (s : State) :
    Host.Outcome State Fault Refusal :=
  .next (sendRequest (cursorDisplayShiftByte displayShift right dontCare) false s)

/-- FUNCTION_SET (R177). A DL that disagrees with MODE is carried like any other byte; MODE stays (R21, U19). -/
def execFunctionSet (dataLength lines font : Bool) (dontCare : BitVec 2) (s : State) :
    Host.Outcome State Fault Refusal :=
  .next (sendRequest (functionSetByte dataLength lines font dontCare) false s)

/-- SET_CGRAM_ADDR (R179). -/
def execSetCgramAddr (address : BitVec 6) (s : State) : Host.Outcome State Fault Refusal :=
  .next (sendRequest (setCgramAddrByte address) false s)

/-- SET_DDRAM_ADDR (R178). -/
def execSetDdramAddr (address : BitVec 7) (s : State) : Host.Outcome State Fault Refusal :=
  .next (sendRequest (setDdramAddrByte address) false s)

end Sys2Proof.Machine
end

