-- ==== Sys2Proof/Machine/Flags.lean ====
section
/-! DEFINITION. The block "has no status flags and no condition codes" (R34). Its only Boolean is CURSOR.isClear. -/

namespace Sys2Proof.Machine

/-- S8_MARK (R140): CURSOR <- row 0, column 0, isClear true. The only write of CURSOR (R32, R34). -/
def markClear (s : State) : State := s.setCursor ⟨0, 0, true⟩

end Sys2Proof.Machine
end

