-- ==== Sys2Proof/Machine/Sequencer.lean ====
section
/-! DEFINITION. The initialization sequencer and tear-down (41_init_sequencer.md). -/

namespace Sys2Proof.Machine

/-- What each value of SEQ issues (R131 to R140), for the command values `c`. -/
def seqPrims (c : CmdV) (m : Mode) (q : Seq) : List Prim :=
  match q with
  | .s1 i =>
    match (drv m)[i]? with
    | some sg => [.cfg sg, .wr sg .low]
    | none => []
  | .s2 =>
    [.wr .rs .low, .wr .d4 .high, .wr .d5 .high] ++ strobePrims ++ strobePrims ++ strobePrims
  | .s3 => .wr .d4 (driveOf (m == .eightBit)) :: strobePrims
  | .s4 => sendBytePrims m (initFunctionSet c m) false
  | .s5 => sendBytePrims m (initDisplayControl c) false
  | .s6 => sendBytePrims m (initEntryMode c) false
  | .s7 => sendBytePrims m (initShift c) false
  | .s8Clear => sendBytePrims m c.clearDisplay false
  | .s8Pos => sendBytePrims m (initPosition c) false
  | .s8Mark => []
  | .idle | .done | .abort _ _ => []

/-- The "next on success" column of R131. -/
def seqNext (m : Mode) (q : Seq) : Seq :=
  match q with
  | .s1 i => if i + 1 < (drv m).length then .s1 (i + 1) else .s2
  | .s2 => .s3
  | .s3 => .s4
  | .s4 => .s5
  | .s5 => .s6
  | .s6 => .s7
  | .s7 => .s8Clear
  | .s8Clear => .s8Pos
  | .s8Pos => .s8Mark
  | .s8Mark => .done
  | .idle => .idle
  | .done => .done
  | .abort k j => .abort k j

/-- Run the step of SEQ (R131): on success SEQ advances, "on any failing primitive it goes to ABORT carrying the
failure's kind and its TRACE index". Only S8_MARK writes CURSOR (R140). -/
def seqStep (c : CmdV) (s : State) : State :=
  match runPrims (seqPrims c s.mode s.seq) s with
  | .ok t => (if s.seq = .s8Mark then markClear t else t).setSeq (seqNext s.mode s.seq)
  | .fail k j t => t.setSeq (.abort k j)

/-- DONE and ABORT end the sequencer's loop (R130). -/
def seqEnded (q : Seq) : Bool :=
  match q with
  | .done | .abort _ _ => true
  | _ => false

/-- "while SEQ not in {DONE, ABORT}: run the step of SEQ" (R130), for at most `n` steps. -/
def seqRun (c : CmdV) (n : Nat) (s : State) : State :=
  match n with
  | 0 => s
  | n + 1 => if seqEnded s.seq then s else seqRun c n (seqStep c s)

/-- How many values SEQ takes from S1(0) to S8_MARK: one per driven signal, then nine (R27). -/
def seqLength (m : Mode) : Nat := (drv m).length + 9

/-- INIT's end (R130): DONE completes (R141), ABORT takes the failure path (R142). The loop ends in no other value. -/
def finishInit (s : State) : State :=
  match s.seq with
  | .done => ((s.setPhase .ready).setSeq .idle).setResult .ok
  | .abort k j => initAbort k j s
  | _ => s

/-- INIT (R130): the phase check comes before the PINMAP check (R210), both before any primitive (R204). -/
def initRequest (c : CmdV) (s : State) : State :=
  if s.phase = .uninit then
    if validPinMap s.pinmap s.mode then
      finishInit (seqRun c (seqLength s.mode) (s.setSeq (.s1 0)))
    else refuse .invalidConfig s
  else refuse .notReady s

/-- TEARDOWN (R144, R145). -/
def teardownRequest (s : State) : State :=
  ((if s.phase = .ready then releaseAll s else s).setPhase .released).setResult .ok

/-- INIT (R130), with the command values of R170. -/
def execInit (s : State) : Host.Outcome State Fault Refusal := .next (initRequest cmdvTable s)

/-- TEARDOWN (R144). -/
def execTeardown (s : State) : Host.Outcome State Fault Refusal := .next (teardownRequest s)

end Sys2Proof.Machine
end

