-- ==== Sys2Proof/Machine/Transceiver.lean ====
section
/-! DEFINITION. The two byte requests of the transceiver (40_transceiver.md). -/

namespace Sys2Proof.Machine

/-- SEND_CMD (R104). -/
def execSendCmd (value : Byte) (s : State) : Host.Outcome State Fault Refusal :=
  .next (sendRequest value false s)

/-- SEND_DATA (R105). -/
def execSendData (value : Byte) (s : State) : Host.Outcome State Fault Refusal :=
  .next (sendRequest value true s)

end Sys2Proof.Machine
end

