-- ==== Sys2Proof/Machine/Step.lean ====
section
/-! DEFINITION. One step: the block takes the caller's next request and runs it to completion (R13, R20). -/

namespace Sys2Proof.Machine

/-- One step. With no request issued the block waits and nothing changes (DESIGN CHOICE, log entry 7); a reserved word
is refused in RESULT (R72, R204); any other word's request is run. -/
def step (s : State) : Host.Outcome State Fault Refusal :=
  match takeRequest s with
  | none => .next s
  | some (w, t) =>
    match requestOf w with
    | some i => exec i t
    | none => .next (refuse .reservedRequest t)

/-- `s` with the word of the opcode table `w` issued as the block's very next request; a number that is no word of the
table's format issues nothing (log entry 5). -/
def State.withFetchWord (s : State) (nbits w : Nat) : State :=
  match tableWord nbits w with
  | some word => pushRequest word s
  | none => s

end Sys2Proof.Machine
end

