-- ==== Sys2Proof/Machine/Asm.lean ====
section
/-! DEFINITION. The one-line request notation of R82: INIT, TEARDOWN, SEND.C imm8, SEND.D imm8, with `;` comments. It is
the spec's own notation (D27); the block never reads it. -/

namespace Sys2Proof.Machine

/-- The value of a digit below 16, in either letter case. -/
def digitValue (c : Char) : Option Nat :=
  if '0' ≤ c ∧ c ≤ '9' then some (c.toNat - '0'.toNat)
  else if 'a' ≤ c ∧ c ≤ 'f' then some (c.toNat - 'a'.toNat + 10)
  else if 'A' ≤ c ∧ c ≤ 'F' then some (c.toNat - 'A'.toNat + 10)
  else none

/-- Nothing but spaces, then the end of the line or a comment. -/
def lineEnds (cs : List Char) : Bool :=
  match cs with
  | [] => true
  | c :: rest => if c = ';' then true else if c = ' ' then lineEnds rest else false

/-- The rest after leading spaces. -/
def skipSpaces (cs : List Char) : List Char :=
  match cs with
  | [] => []
  | c :: rest => if c = ' ' then skipSpaces rest else c :: rest

/-- Digits of a base up to the end of the line, onto the number read so far; `seen` says a digit has been read. -/
def readDigits (base acc : Nat) (seen : Bool) (cs : List Char) : Option Nat :=
  match cs with
  | [] => if seen then some acc else none
  | c :: rest =>
    match digitValue c with
    | some d => if d < base then readDigits base (base * acc + d) true rest else none
    | none => if seen && lineEnds (c :: rest) then some acc else none

/-- `<imm8>` (R82): decimal, `0x` hex, `0b` binary, or a character in single quotes; 0 to 255. -/
def readImm8 (cs : List Char) : Option Byte :=
  let n :=
    match cs with
    | '\'' :: c :: '\'' :: rest => if lineEnds rest then some c.toNat else none
    | '0' :: 'x' :: rest => readDigits 16 0 false rest
    | '0' :: 'b' :: rest => readDigits 2 0 false rest
    | rest => readDigits 10 0 false rest
  match n with
  | some v => if v < 256 then some (BitVec.ofNat 8 v) else none
  | none => none

/-- The operand of a SEND line, after the space that separates it from the mnemonic. -/
def readOperand (cs : List Char) : Option Byte :=
  match cs with
  | ' ' :: rest => readImm8 (skipSpaces rest)
  | _ => none

/-- One line of R82's notation to its request word. -/
def readLine (cs : List Char) : Option ReqWord :=
  match skipSpaces cs with
  | 'I' :: 'N' :: 'I' :: 'T' :: rest => if lineEnds rest then some (encode .init) else none
  | 'T' :: 'E' :: 'A' :: 'R' :: 'D' :: 'O' :: 'W' :: 'N' :: rest =>
    if lineEnds rest then some (encode .teardown) else none
  | 'S' :: 'E' :: 'N' :: 'D' :: '.' :: 'C' :: rest =>
    (readOperand rest).map (fun v => encode (.sendCmd v))
  | 'S' :: 'E' :: 'N' :: 'D' :: '.' :: 'D' :: rest =>
    (readOperand rest).map (fun v => encode (.sendData v))
  | _ => none

end Sys2Proof.Machine
end

