-- ==== Sys2Proof/Safety.lean ====
section
/-! DEFINITION. The terms the claims use: the invariant of a block between requests, premises on the Port's answers, and
what the rules say a request leaves, written out from the rules' own tables. -/

namespace Sys2Proof.Safety

open Sys2Proof.Machine

/-! ### Premises on the Port -/

/-- Does a primitive ask the Port for an answer? `Hold` does not (R11). -/
def asks (p : Prim) : Bool :=
  match p with
  | .cfg _ => true
  | .wr _ _ => true
  | .hold => false

/-- The Port answers `ok` to every primitive of `ps` when they are issued in order from `s`. -/
def AllOk (ps : List Prim) (s : State) : Prop :=
  ∀ n p, ps[n]? = some p → asks p = true → s.portAnswer (s.trace.length + n + 1) = .ok

/-- The Port's first failing answer, when `ps` are issued in order from `s`, is the one to `ps[n]`, which is `p`. -/
def FirstFails (ps : List Prim) (n : Nat) (p : Prim) (s : State) : Prop :=
  AllOk (ps.take n) s ∧ ps[n]? = some p ∧ asks p = true ∧
    s.portAnswer (s.trace.length + n + 1) = .failed

/-- The TRACE event of a primitive that gets `a` as its answer. -/
def eventOf (s : State) (a : PortAnswer) (p : Prim) : Event :=
  match p with
  | .cfg sg => .cfg (s.pin sg) a
  | .wr sg d => .wr (s.pin sg) d a
  | .hold => .hold

/-- The failure a primitive ends its request with (R201, R202). -/
def failureOf (p : Prim) : ErrKind :=
  match p with
  | .cfg _ => .configurationError
  | .wr _ _ => .ioError
  | .hold => .ioError

/-- The signal whose pin a primitive claims. -/
def claimOf (p : Prim) : Option Signal :=
  match p with
  | .cfg sg => some sg
  | .wr _ _ => none
  | .hold => none

/-- Does a primitive write E? -/
def writesE (p : Prim) : Bool :=
  match p with
  | .wr .e _ => true
  | _ => false

/-- Lists of primitives, each followed by one whole strobe (R100, R103, R133, R134). -/
def strobed (blocks : List (List Prim)) : List Prim := (blocks.map (fun b => b ++ strobePrims)).flatten

/-- The level the last write of `ps` to a signal drives, if `ps` writes it (R29, R206). -/
def lastDriven (ps : List Prim) (sg : Signal) : Option Drive :=
  (ps.filterMap (fun p =>
    match p with
    | .wr sg' d => if sg' = sg then some d else none
    | .cfg _ => none
    | .hold => none)).getLast?

/-! ### One byte transfer, written out (R103, R109, R110) -/

/-- The level of a driven bit. -/
def bitLevel (b : Bool) : Level := if b then .high else .low

/-- An 8-bit bus word (R80, R53). -/
def byteBus (v : Byte) : Bus :=
  .bus8 (bitLevel (v.getLsbD 7)) (bitLevel (v.getLsbD 6)) (bitLevel (v.getLsbD 5))
    (bitLevel (v.getLsbD 4)) (bitLevel (v.getLsbD 3)) (bitLevel (v.getLsbD 2))
    (bitLevel (v.getLsbD 1)) (bitLevel (v.getLsbD 0))

/-- A 4-bit bus word (R80, R55). -/
def nibbleBus (n : Nibble) : Bus :=
  .bus4 (bitLevel (n.getLsbD 3)) (bitLevel (n.getLsbD 2)) (bitLevel (n.getLsbD 1))
    (bitLevel (n.getLsbD 0))

/-- A write that returned `ok`. -/
def okWr (s : State) (sg : Signal) (b : Bool) : Event := .wr (s.pin sg) (if b then .high else .low) .ok

/-- The events of one strobe (R100). -/
def strobeEvents (s : State) : List Event := [okWr s .e true, .hold, okWr s .e false, .hold]

/-- The events of one byte that goes through (R103; V1, V2, V8, V9 give instances). -/
def sentEvents (s : State) (v : Byte) (asData : Bool) : List Event :=
  match s.mode with
  | .eightBit =>
    [okWr s .rs asData,
     okWr s .d0 (v.getLsbD 0), okWr s .d1 (v.getLsbD 1), okWr s .d2 (v.getLsbD 2),
     okWr s .d3 (v.getLsbD 3), okWr s .d4 (v.getLsbD 4), okWr s .d5 (v.getLsbD 5),
     okWr s .d6 (v.getLsbD 6), okWr s .d7 (v.getLsbD 7)] ++ strobeEvents s
  | .fourBit =>
    [okWr s .rs asData,
     okWr s .d4 (v.getLsbD 4), okWr s .d5 (v.getLsbD 5), okWr s .d6 (v.getLsbD 6),
     okWr s .d7 (v.getLsbD 7)] ++ strobeEvents s ++
    [okWr s .d4 (v.getLsbD 0), okWr s .d5 (v.getLsbD 1), okWr s .d6 (v.getLsbD 2),
     okWr s .d7 (v.getLsbD 3)] ++ strobeEvents s

/-- The latch events of one byte that goes through (R109). -/
def sentLatches (m : Mode) (v : Byte) (asData : Bool) : List Latch :=
  match m with
  | .eightBit => [.latch (bitLevel asData) (byteBus v)]
  | .fourBit =>
    [.latch (bitLevel asData) (nibbleBus ((v >>> 4).setWidth 4)),
     .latch (bitLevel asData) (nibbleBus ((v &&& 0xF#8).setWidth 4))]

/-- The levels after one byte that goes through (R110). -/
def sentLevels (m : Mode) (v : Byte) (asData : Bool) (lv : Levels) : Levels :=
  match m with
  | .eightBit =>
    { rs := bitLevel asData, e := .low
      d0 := bitLevel (v.getLsbD 0), d1 := bitLevel (v.getLsbD 1), d2 := bitLevel (v.getLsbD 2)
      d3 := bitLevel (v.getLsbD 3), d4 := bitLevel (v.getLsbD 4), d5 := bitLevel (v.getLsbD 5)
      d6 := bitLevel (v.getLsbD 6), d7 := bitLevel (v.getLsbD 7) }
  | .fourBit =>
    { lv with
      rs := bitLevel asData, e := .low
      d4 := bitLevel (v.getLsbD 0), d5 := bitLevel (v.getLsbD 1)
      d6 := bitLevel (v.getLsbD 2), d7 := bitLevel (v.getLsbD 3) }

/-- The state one byte that goes through leaves (R104, R105, R108 to R110): nothing but LVL, TRACE, LATCH and RESULT. -/
def afterSend (v : Byte) (asData : Bool) (s : State) : State :=
  { s with
    levels := sentLevels s.mode v asData s.levels
    trace := s.trace ++ sentEvents s v asData
    latch := s.latch ++ sentLatches s.mode v asData
    result := some .ok }

/-! ### INIT, written out (R132 to R140, R147, R148, R231) -/

/-- The primitives of a successful INIT in order (R132 to R140), with the bytes of R180. -/
def initProgram (m : Mode) : List Prim :=
  (drv m).flatMap (fun sg => [.cfg sg, .wr sg .low]) ++
  [.wr .rs .low, .wr .d4 .high, .wr .d5 .high] ++ strobePrims ++ strobePrims ++ strobePrims ++
  [.wr .d4 (match m with | .eightBit => .high | .fourBit => .low)] ++ strobePrims ++
  sendBytePrims m (match m with | .eightBit => 0x3C#8 | .fourBit => 0x2C#8) false ++
  sendBytePrims m 0x0E#8 false ++ sendBytePrims m 0x06#8 false ++
  sendBytePrims m 0x14#8 false ++ sendBytePrims m 0x01#8 false ++ sendBytePrims m 0x80#8 false

/-- The events of a successful INIT (R147; V10 and V11 are its two instances). -/
def initEvents (s : State) : List Event :=
  (drv s.mode).flatMap (fun sg => [.cfg (s.pin sg) .ok, okWr s sg false]) ++
  [okWr s .rs false, okWr s .d4 true, okWr s .d5 true] ++
  strobeEvents s ++ strobeEvents s ++ strobeEvents s ++
  [okWr s .d4 (match s.mode with | .eightBit => true | .fourBit => false)] ++ strobeEvents s ++
  sentEvents s (match s.mode with | .eightBit => 0x3C#8 | .fourBit => 0x2C#8) false ++
  sentEvents s 0x0E#8 false ++ sentEvents s 0x06#8 false ++ sentEvents s 0x14#8 false ++
  sentEvents s 0x01#8 false ++ sentEvents s 0x80#8 false

/-- What the drive-low of E at step 1 appends to LATCH (R31, R132), from the levels INIT starts with; RS is L by then. -/
def firstEdge (s : State) : List Latch :=
  match s.levels.e with
  | .unknown => [.maybeLatch .low (busOf s.mode s.levels)]
  | .high => [.latch .low (busOf s.mode s.levels)]
  | .low => []

/-- The latch events of a successful INIT after that first edge (R148), by data-line number. -/
def initLatches (m : Mode) : List Latch :=
  match m with
  | .fourBit =>
    [0x3#4, 0x3#4, 0x3#4, 0x2#4, 0x2#4, 0xC#4, 0x0#4, 0xE#4, 0x0#4, 0x6#4,
     0x1#4, 0x4#4, 0x0#4, 0x1#4, 0x8#4, 0x0#4].map (fun n => .latch .low (nibbleBus n))
  | .eightBit =>
    [0x30#8, 0x30#8, 0x30#8, 0x30#8, 0x3C#8, 0x0E#8, 0x06#8, 0x14#8, 0x01#8, 0x80#8].map
      (fun v => .latch .low (byteBus v))

/-- The levels after a successful INIT (R231). -/
def initLevels (m : Mode) (lv : Levels) : Levels :=
  match m with
  | .fourBit =>
    { lv with rs := .low, e := .low, d4 := .low, d5 := .low, d6 := .low, d7 := .low }
  | .eightBit =>
    { rs := .low, e := .low, d0 := .low, d1 := .low, d2 := .low, d3 := .low
      d4 := .low, d5 := .low, d6 := .low, d7 := .high }

/-- The state a successful INIT leaves (R141, R231). -/
def afterInit (s : State) : State :=
  { s with
    phase := .ready
    seq := .idle
    claimed := s.claimed ++ s.drvPins
    levels := initLevels s.mode s.levels
    trace := s.trace ++ initEvents s
    latch := s.latch ++ firstEdge s ++ initLatches s.mode
    cursor := some ⟨0, 0, true⟩
    result := some .ok }

/-! ### The machine as a whole -/

/-- The pin an event is about. -/
def eventPin (ev : Event) : Option PinId :=
  match ev with
  | .cfg p _ => some p
  | .wr p _ _ => some p
  | .rel p => some p
  | .hold => none

/-- A `Latch`, not a `MaybeLatch` (R109). -/
def isLatch (l : Latch) : Bool :=
  match l with
  | .latch _ _ => true
  | .maybeLatch _ _ => false

/-- Is the event a `PortRel`? -/
def isRel (ev : Event) : Bool :=
  match ev with
  | .rel _ => true
  | _ => false

/-- Is the event a `PortWr`? -/
def isWr (ev : Event) : Bool :=
  match ev with
  | .wr _ _ _ => true
  | _ => false

/-- Is the event a `PortCfg`? -/
def isCfg (ev : Event) : Bool :=
  match ev with
  | .cfg _ _ => true
  | _ => false

/-- Is the event a `Hold`? -/
def isHold (ev : Event) : Bool :=
  match ev with
  | .hold => true
  | _ => false

/-- The lower bound, in milliseconds, that its holds put on the time a list of events takes (R251, R252). -/
def holdTimeMs (evs : List Event) : Nat := (evs.filter isHold).length * Config.tHoldMinMs

/-- The requests that carry one byte: SEND_CMD, SEND_DATA, and the eight classes with the byte their rule gives
(R104, R105, R172 to R179); INIT and TEARDOWN carry none. -/
def carriedByte (i : Instr) : Option (Byte × Bool) :=
  match i with
  | .init => none
  | .teardown => none
  | .sendCmd v => some (v, false)
  | .sendData v => some (v, true)
  | .clearDisplay => some (0x01#8, false)
  | .returnHome x => some (0x02#8 ||| x.setWidth 8, false)
  | .entryModeSet inc sh =>
    some (0x04#8 ||| (BitVec.ofBool inc).setWidth 8 <<< 1 ||| (BitVec.ofBool sh).setWidth 8, false)
  | .displayControl d c b =>
    some (0x08#8 ||| (BitVec.ofBool d).setWidth 8 <<< 2 ||| (BitVec.ofBool c).setWidth 8 <<< 1 |||
      (BitVec.ofBool b).setWidth 8, false)
  | .cursorDisplayShift sc rl x =>
    some (0x10#8 ||| (BitVec.ofBool sc).setWidth 8 <<< 3 ||| (BitVec.ofBool rl).setWidth 8 <<< 2 |||
      x.setWidth 8, false)
  | .functionSet dl n f x =>
    some (0x20#8 ||| (BitVec.ofBool dl).setWidth 8 <<< 4 ||| (BitVec.ofBool n).setWidth 8 <<< 3 |||
      (BitVec.ofBool f).setWidth 8 <<< 2 ||| x.setWidth 8, false)
  | .setCgramAddr a => some (0x40#8 ||| a.setWidth 8, false)
  | .setDdramAddr a => some (0x80#8 ||| a.setWidth 8, false)

/-- The invariant of a block between requests. -/
structure Inv (s : State) : Prop where
  /-- SEQ "is IDLE outside INIT" (R27). -/
  seqIdle : s.seq = .idle
  /-- A READY block holds exactly the pins of DRV(MODE), under a valid PINMAP, and CURSOR has a value (R231). -/
  readyHolds : s.phase = .ready →
    s.claimed = s.drvPins ∧ validPinMap s.pinmap s.mode = true ∧ s.cursor.isSome = true
  /-- Outside READY no pin is claimed and every level is X (R37, R232, R233). -/
  elseNothing : s.phase ≠ .ready → s.claimed = [] ∧ s.levels = Levels.allUnknown
  /-- A signal outside DRV(MODE) is never driven (R51). -/
  undriven : ∀ sg, sg ∉ drv s.mode → levelAt s.levels sg = .unknown
  /-- In UNINIT nothing has been issued (R37). -/
  fresh : s.phase = .uninit → s.trace = [] ∧ s.latch = [] ∧ s.cursor = none
  /-- Every primitive is on a pin of PINMAP[DRV(MODE)] (R51). -/
  onDrvPins : ∀ ev ∈ s.trace, ∀ p, eventPin ev = some p → p ∈ s.drvPins
  /-- Only the first latch event can be a `MaybeLatch` (R109). -/
  latchesAfterFirst : ∀ l ∈ s.latch.tail, isLatch l = true

/-- The host's duty of R236, which no rule of the block depends on: it waited at least T_POWER_ON before INIT. -/
def HostWaited (ms : Nat) : Prop := Config.tPowerOnMs ≤ ms

/-- The premise WakeSpacingMet of R243 (D31), from general knowledge: more than 4.1 ms after the first wake transfer
and more than 100 µs after the second, in microseconds. The model states no display-side result, so nothing uses it. -/
def WakeSpacingMet (firstGapUs secondGapUs : Nat) : Prop := 4100 < firstGapUs ∧ 100 < secondGapUs

end Sys2Proof.Safety
end

