-- ==== Sys2Proof/Certificates/Slice0/Obligations.lean ====
section
/-! DEFINITION. The statements for the provers, each from the rules of spec/ that its docstring cites. -/

open Sys2Proof Sys2Proof.Machine Sys2Proof.Safety

/-! ### Encodings (30_encoding.md, 42_command_words.md) -/

/-- R71, R75: the decoder gives back every instruction from its encoding, with every operand at every value. -/
def Obligations.DecodeOfEncode : Prop :=
  ∀ i : Instr, i.wellFormed = true → decode (encode i) = .instr i

/-- R71, R75: each word the decoder reads an instruction from is that instruction's one encoding. -/
def Obligations.EncodeOfDecode : Prop :=
  ∀ (w : ReqWord) (i : Instr), decode w = .instr i → encode i = w

/-- R72: the decoding of a request word by bit 9, bit 8 and the control code; the refusal of a reserved word; that
there are 510 of them. -/
def Obligations.RequestWordsDecodeTotally : Prop :=
  (∀ w : ReqBits,
    (w.getLsbD 9 = true → w.getLsbD 8 = false →
      decode (.req10 w) = .instr (.sendCmd (w.extractLsb' 0 8))) ∧
    (w.getLsbD 9 = true → w.getLsbD 8 = true →
      decode (.req10 w) = .instr (.sendData (w.extractLsb' 0 8))) ∧
    (w = 0x000#10 → decode (.req10 w) = .instr .init) ∧
    (w = 0x001#10 → decode (.req10 w) = .instr .teardown) ∧
    (w.getLsbD 9 = false → w ≠ 0x000#10 → w ≠ 0x001#10 →
      decode (.req10 w) = .reservedRequest w)) ∧
  (∀ (s : State) (w : ReqBits) (rest : List ReqWord),
    s.requests = .req10 w :: rest → decode (.req10 w) = .reservedRequest w →
      step s = .next { s with requests := rest, result := some (.refused .reservedRequest) }) ∧
  ((List.range 1024).filter
    (fun n => decide (decode (.req10 (BitVec.ofNat 10 n)) = .reservedRequest (BitVec.ofNat 10 n)))).length
    = 510

/-- R75: a command byte is in a class exactly when it has the class's match under the class's mask; its fields are the
bits the class gives; 0x00 is in no class. -/
def Obligations.CommandBytesHaveOneClass : Prop :=
  ∀ b : Byte,
    (b &&& 0xFF#8 = 0x01#8 ↔ decode (.cmd8 b) = .instr .clearDisplay) ∧
    (b &&& 0xFE#8 = 0x02#8 ↔ decode (.cmd8 b) = .instr (.returnHome (b.extractLsb' 0 1))) ∧
    (b &&& 0xFC#8 = 0x04#8 ↔
      decode (.cmd8 b) = .instr (.entryModeSet (b.getLsbD 1) (b.getLsbD 0))) ∧
    (b &&& 0xF8#8 = 0x08#8 ↔
      decode (.cmd8 b) = .instr (.displayControl (b.getLsbD 2) (b.getLsbD 1) (b.getLsbD 0))) ∧
    (b &&& 0xF0#8 = 0x10#8 ↔
      decode (.cmd8 b) =
        .instr (.cursorDisplayShift (b.getLsbD 3) (b.getLsbD 2) (b.extractLsb' 0 2))) ∧
    (b &&& 0xE0#8 = 0x20#8 ↔
      decode (.cmd8 b) =
        .instr (.functionSet (b.getLsbD 4) (b.getLsbD 3) (b.getLsbD 2) (b.extractLsb' 0 2))) ∧
    (b &&& 0xC0#8 = 0x40#8 ↔ decode (.cmd8 b) = .instr (.setCgramAddr (b.extractLsb' 0 6))) ∧
    (b &&& 0x80#8 = 0x80#8 ↔ decode (.cmd8 b) = .instr (.setDdramAddr (b.extractLsb' 0 7))) ∧
    (b = 0x00#8 ↔ decode (.cmd8 b) = .noClass)

/-- R171 with the values of R170: the OR of a class constant with its own flags is the class's pattern with those field
bits set. -/
def Obligations.FlagsOrToTheClassPattern : Prop :=
  encode .clearDisplay = .cmd8 cmdvTable.clearDisplay ∧
  encode (.returnHome 0#1) = .cmd8 cmdvTable.returnHome ∧
  (∀ inc sh : Bool,
    encode (.entryModeSet inc sh) =
      .cmd8 (cmdvTable.entryModeSet ||| (if inc then cmdvTable.idIncrement else 0#8) |||
        (if sh then cmdvTable.entryShift else 0#8))) ∧
  (∀ d c b : Bool,
    encode (.displayControl d c b) =
      .cmd8 (cmdvTable.displayControl ||| (if d then cmdvTable.dOn else 0#8) |||
        (if c then cmdvTable.cOn else 0#8) ||| (if b then cmdvTable.bOn else 0#8))) ∧
  (∀ sc rl : Bool,
    encode (.cursorDisplayShift sc rl 0#2) =
      .cmd8 (cmdvTable.cursorDisplayShift ||| (if sc then cmdvTable.scDisplay else 0#8) |||
        (if rl then cmdvTable.rlRight else 0#8))) ∧
  (∀ dl n f : Bool,
    encode (.functionSet dl n f 0#2) =
      .cmd8 (cmdvTable.functionSet ||| (if dl then cmdvTable.dl8Bit else 0#8) |||
        (if n then cmdvTable.n2Line else 0#8) ||| (if f then cmdvTable.f5x10 else 0#8))) ∧
  (∀ a : BitVec 6, encode (.setCgramAddr a) = .cmd8 (cmdvTable.setCgramAddr ||| a.setWidth 8)) ∧
  (∀ a : BitVec 7, encode (.setDdramAddr a) = .cmd8 (cmdvTable.setDdramAddr ||| a.setWidth 8))

/-- R172 to R179: the byte each class's pseudocode composes is the very byte that encodes it, don't-care bits as given,
and running the class is running SEND_CMD of that byte. -/
def Obligations.ClassBytesMatchTheirWords : Prop :=
  ∀ (i : Instr) (b : Byte), encode i = .cmd8 b →
    carriedByte i = some (b, false) ∧ ∀ s : State, exec i s = exec (.sendCmd b) s

/-- Words written out from 30_encoding.md R71 and R75 (95_test_vectors.md sections 2.1 and 2.2). A sanity statement. -/
def Obligations.WrittenOutWordsDecode : Prop :=
  decode (.req10 0b0000000000#10) = .instr .init ∧
  decode (.req10 0b0000000001#10) = .instr .teardown ∧
  decode (.req10 0b1010100101#10) = .instr (.sendCmd 0xA5#8) ∧
  decode (.req10 0b1101000001#10) = .instr (.sendData 0x41#8) ∧
  decode (.cmd8 0b00000110#8) = .instr (.entryModeSet true false) ∧
  decode (.cmd8 0b00001110#8) = .instr (.displayControl true true false) ∧
  decode (.cmd8 0b00010100#8) = .instr (.cursorDisplayShift false true 0#2) ∧
  decode (.cmd8 0b00111100#8) = .instr (.functionSet true true true 0#2) ∧
  decode (.cmd8 0b01111111#8) = .instr (.setCgramAddr 0x3F#6) ∧
  decode (.cmd8 0b11000000#8) = .instr (.setDdramAddr 0x40#7)

/-- R78: the nibble split. -/
def Obligations.NibbleSplit : Prop :=
  ∀ v : Byte,
    highNibble v = (v >>> 4).setWidth 4 ∧ highNibble v = v.extractLsb' 4 4 ∧
    lowNibble v = (v &&& 0xF#8).setWidth 4 ∧ lowNibble v = v.extractLsb' 0 4 ∧
    v = (highNibble v).setWidth 8 <<< 4 ||| (lowNibble v).setWidth 8

/-- R181, C1: the position byte on its range, where OR and addition agree. -/
def Obligations.PositionByteOnItsRange : Prop :=
  ∀ x : Nat, x ≤ 0x3F →
    positionByte 0x80#8 x 0 = some (0x80#8 ||| BitVec.ofNat 8 x) ∧
    positionByte 0x80#8 x 0 = some (0x80#8 + BitVec.ofNat 8 x) ∧
    positionByte 0x80#8 x 1 = some (0xC0#8 ||| BitVec.ofNat 8 x) ∧
    positionByte 0x80#8 x 1 = some (0xC0#8 + BitVec.ofNat 8 x)

/-- R83: what each pseudo-request hands the block. -/
def Obligations.PseudoRequestsExpand : Prop :=
  (∀ w : Byte, expand (.cmd w) = some [.req10 (0b10#2 ++ w)]) ∧
  (∀ c : Byte, expand (.putc c) = some [.req10 (0b11#2 ++ c)]) ∧
  expand .clear = some [.req10 0x201#10, .req10 0x280#10] ∧
  (∀ x : Nat, x ≤ 0x3F →
    expand (.pos x 0) = some [.req10 (0x280#10 ||| BitVec.ofNat 10 x)] ∧
    expand (.pos x 1) = some [.req10 (0x2C0#10 ||| BitVec.ofNat 10 x)])

/-- R80: a bus word reads as the number on its lines, D7 most significant, when no line is X. -/
def Obligations.BusWordsRead : Prop :=
  (∀ v : Byte, busValue (byteBus v) = some v.toNat) ∧
  (∀ n : Nibble, busValue (nibbleBus n) = some n.toNat) ∧
  (∀ b : Bus, Level.unknown ∈ busLevels b → busValue b = none)

/-! ### Steps (R13, R20) -/

/-- R13, R20: when the caller's next word decodes to an instruction, a step takes the word and runs that instruction. -/
def Obligations.StepRunsTheDecodedRequest : Prop :=
  ∀ (s : State) (w : ReqWord) (rest : List ReqWord) (i : Instr),
    s.requests = w :: rest → decode w = .instr i → i.wellFormed = true →
      step s = exec i { s with requests := rest }

/-- The model's choice (log entry 5): a word issued with `withFetchWord` is the very next request run. -/
def Obligations.IssuedTableWordRuns : Prop :=
  ∀ (s : State) (nbits w : Nat) (i : Instr),
    decodeTableWord nbits w = some i → step (s.withFetchWord nbits w) = exec i s

/-- The model's choice (log entries 6 and 7): the byte 0x00, handed over as a command byte, is carried as the legal
SEND_CMD operand R76 calls it; with no request issued nothing changes. -/
def Obligations.StepWithoutAClassOrARequest : Prop :=
  (∀ (s : State) (rest : List ReqWord), s.requests = .cmd8 0x00#8 :: rest →
    step s = exec (.sendCmd 0x00#8) { s with requests := rest }) ∧
  (∀ s : State, s.requests = [] → step s = .next s)

/-! ### The Port primitives (R28, R29, R31, R100) -/

/-- R29: LVL after a write that is `ok`, a write that fails, a release, and a configure. -/
def Obligations.LevelsFollowTheWrites : Prop :=
  (∀ (sg : Signal) (d : Drive) (s : State), s.portAnswer s.nextIndex = .ok →
    ∃ t, portWr sg d s = .ok t ∧ levelAt t.levels sg = driveLevel d ∧
      ∀ sg', sg' ≠ sg → levelAt t.levels sg' = levelAt s.levels sg') ∧
  (∀ (sg : Signal) (d : Drive) (s : State), s.portAnswer s.nextIndex = .failed →
    ∃ t, portWr sg d s = .fail .ioError s.nextIndex t ∧ levelAt t.levels sg = .unknown ∧
      ∀ sg', sg' ≠ sg → levelAt t.levels sg' = levelAt s.levels sg') ∧
  (∀ (p : PinId) (s : State) (sg : Signal), sg ∈ drv s.mode →
    levelAt (portRel p s).levels sg = if s.pin sg = p then .unknown else levelAt s.levels sg) ∧
  (∀ (sg : Signal) (s : State), s.portAnswer s.nextIndex = .ok →
    ∃ t, portCfg sg s = .ok t ∧ t.levels = s.levels)

/-- R31: only a write of L to E that returns `ok` makes a latch event, by the level E had just before. -/
def Obligations.LatchesAtTheFallingEdge : Prop :=
  (∀ s : State, s.portAnswer s.nextIndex = .ok →
    ∃ t, portWr .e .low s = .ok t ∧
      t.latch =
        match s.levels.e with
        | .high => s.latch ++ [.latch s.levels.rs (busOf s.mode s.levels)]
        | .unknown => s.latch ++ [.maybeLatch s.levels.rs (busOf s.mode s.levels)]
        | .low => s.latch) ∧
  (∀ (s t : State) (k : ErrKind) (j : Nat), runPrim (.wr .e .low) s = .fail k j t → t.latch = s.latch) ∧
  (∀ (p : Prim) (s t : State), p ≠ .wr .e .low →
    (runPrim p s = .ok t ∨ ∃ k j, runPrim p s = .fail k j t) → t.latch = s.latch) ∧
  (∀ (p : PinId) (s : State), (portRel p s).latch = s.latch) ∧
  (∀ lv : Levels, busOf .fourBit lv = .bus4 lv.d7 lv.d6 lv.d5 lv.d4 ∧
    busOf .eightBit lv = .bus8 lv.d7 lv.d6 lv.d5 lv.d4 lv.d3 lv.d2 lv.d1 lv.d0)

/-- R28: `PortCfg` that returns `ok` appends its pin to CLAIMED, one that fails does not, `PortWr`, `Hold` and a single
`PortRel` leave it; tear-down empties it. -/
def Obligations.ClaimsFollowTheConfigures : Prop :=
  (∀ (sg : Signal) (s : State), s.portAnswer s.nextIndex = .ok →
    ∃ t, portCfg sg s = .ok t ∧ t.claimed = s.claimed ++ [s.pin sg]) ∧
  (∀ (sg : Signal) (s : State), s.portAnswer s.nextIndex = .failed →
    ∃ t, portCfg sg s = .fail .configurationError s.nextIndex t ∧ t.claimed = s.claimed) ∧
  (∀ (sg : Signal) (d : Drive) (s t : State),
    (portWr sg d s = .ok t ∨ ∃ k j, portWr sg d s = .fail k j t) → t.claimed = s.claimed) ∧
  (∀ s : State, ∃ t, runPrim .hold s = .ok t ∧ t.claimed = s.claimed) ∧
  (∀ (p : PinId) (s : State), (portRel p s).claimed = s.claimed) ∧
  (∀ s : State, (releaseAll s).claimed = [])

/-- R100 with R29, R31, R109: a strobe issues E high, hold, E low, hold, leaves E at L, and makes one ordinary latch
event whatever E's level was; it ends at once when either write fails, with E at X (decision D21); no other
micro-operation writes E, and every sequencer step after step 1 and every byte transfer is made of whole strobes with
other writes, none of E and no hold, before each. -/
def Obligations.StrobeRaisesAndLowersE : Prop :=
  (∀ s : State, AllOk strobePrims s →
    ∃ t, runPrims strobePrims s = .ok t ∧
      t.trace = s.trace ++ [.wr (s.pin .e) .high .ok, .hold, .wr (s.pin .e) .low .ok, .hold] ∧
      t.levels = { s.levels with e := .low } ∧
      t.latch = s.latch ++ [.latch s.levels.rs (busOf s.mode s.levels)]) ∧
  (∀ (s : State) (n : Nat) (p : Prim), FirstFails strobePrims n p s →
    (n = 0 ∨ n = 2) ∧ ∃ t, runPrims strobePrims s = .fail .ioError (s.trace.length + n + 1) t ∧
      levelAt t.levels .e = .unknown ∧ t.latch = s.latch) ∧
  (∀ (c : CmdV) (m : Mode) (q : Seq), (∀ i, q ≠ .s1 i) →
    ∃ blocks, seqPrims c m q = strobed blocks ∧
      ∀ b ∈ blocks, ∀ p ∈ b, writesE p = false ∧ p ≠ .hold) ∧
  (∀ (m : Mode) (v : Byte) (asData : Bool),
    ∃ blocks, sendBytePrims m v asData = strobed blocks ∧
      ∀ b ∈ blocks, ∀ p ∈ b, writesE p = false ∧ p ≠ .hold) ∧
  (∀ (n : Nibble) (d : Drive), Prim.wr .e d ∉ putNibblePrims n) ∧
  (∀ (v : Byte) (d : Drive), Prim.wr .e d ∉ putBytePrims v)

/-! ### SEND_CMD, SEND_DATA and the command classes (40_transceiver.md, 42_command_words.md) -/

/-- R104, R105 with R103, R109, R110: in READY, when no primitive fails, SEND_CMD and SEND_DATA transmit their byte and
change LVL, TRACE, LATCH and RESULT as written out in `afterSend`, and nothing else; whatever the levels were before. -/
def Obligations.SendRequestsTransmitTheirByte : Prop :=
  ∀ (v : Byte) (s : State), s.phase = .ready →
    (AllOk (sendBytePrims s.mode v false) s → exec (.sendCmd v) s = .next (afterSend v false s)) ∧
    (AllOk (sendBytePrims s.mode v true) s → exec (.sendData v) s = .next (afterSend v true s))

/-- R172 to R179: in READY, when no primitive fails, each command class transmits its byte as SEND_CMD does. -/
def Obligations.CommandClassesTransmitTheirByte : Prop :=
  ∀ s : State, s.phase = .ready →
    (AllOk (sendBytePrims s.mode 0x01#8 false) s →
      exec .clearDisplay s = .next (afterSend 0x01#8 false s)) ∧
    (∀ x : BitVec 1, AllOk (sendBytePrims s.mode (0b0000001#7 ++ x) false) s →
      exec (.returnHome x) s = .next (afterSend (0b0000001#7 ++ x) false s)) ∧
    (∀ (inc sh : Bool) (b : Byte),
      b = 0b000001#6 ++ BitVec.ofBool inc ++ BitVec.ofBool sh →
      AllOk (sendBytePrims s.mode b false) s →
      exec (.entryModeSet inc sh) s = .next (afterSend b false s)) ∧
    (∀ (d c k : Bool) (b : Byte),
      b = 0b00001#5 ++ BitVec.ofBool d ++ BitVec.ofBool c ++ BitVec.ofBool k →
      AllOk (sendBytePrims s.mode b false) s →
      exec (.displayControl d c k) s = .next (afterSend b false s)) ∧
    (∀ (sc rl : Bool) (x : BitVec 2) (b : Byte),
      b = 0b0001#4 ++ BitVec.ofBool sc ++ BitVec.ofBool rl ++ x →
      AllOk (sendBytePrims s.mode b false) s →
      exec (.cursorDisplayShift sc rl x) s = .next (afterSend b false s)) ∧
    (∀ (dl n f : Bool) (x : BitVec 2) (b : Byte),
      b = 0b001#3 ++ BitVec.ofBool dl ++ BitVec.ofBool n ++ BitVec.ofBool f ++ x →
      AllOk (sendBytePrims s.mode b false) s →
      exec (.functionSet dl n f x) s = .next (afterSend b false s)) ∧
    (∀ a : BitVec 6, AllOk (sendBytePrims s.mode (0b01#2 ++ a) false) s →
      exec (.setCgramAddr a) s = .next (afterSend (0b01#2 ++ a) false s)) ∧
    (∀ a : BitVec 7, AllOk (sendBytePrims s.mode (0b1#1 ++ a) false) s →
      exec (.setDdramAddr a) s = .next (afterSend (0b1#1 ++ a) false s))

/-- R53: in EightBit every byte goes as one transfer in which data line Di carries bit i, so the bus word reads as the
byte itself. -/
def Obligations.EightBitLinesCarryTheByte : Prop :=
  ∀ (i : Instr) (v : Byte) (asData : Bool) (s : State),
    carriedByte i = some (v, asData) → s.phase = .ready → s.mode = .eightBit →
    AllOk (sendBytePrims s.mode v asData) s →
    ∃ t bus rs, exec i s = .next t ∧ t.latch = s.latch ++ [.latch rs bus] ∧
      bus = busOf .eightBit t.levels ∧ busValue bus = some v.toNat ∧
      t.levels.d0 = bitLevel (v.getLsbD 0) ∧ t.levels.d1 = bitLevel (v.getLsbD 1) ∧
      t.levels.d2 = bitLevel (v.getLsbD 2) ∧ t.levels.d3 = bitLevel (v.getLsbD 3) ∧
      t.levels.d4 = bitLevel (v.getLsbD 4) ∧ t.levels.d5 = bitLevel (v.getLsbD 5) ∧
      t.levels.d6 = bitLevel (v.getLsbD 6) ∧ t.levels.d7 = bitLevel (v.getLsbD 7)

/-- R108: the counts of one byte that goes through. -/
def Obligations.ByteTransferCounts : Prop :=
  ∀ (i : Instr) (v : Byte) (asData : Bool) (s : State),
    carriedByte i = some (v, asData) → s.phase = .ready → AllOk (sendBytePrims s.mode v asData) s →
    ∃ t evs ls, exec i s = .next t ∧ t.result = some .ok ∧
      t.trace = s.trace ++ evs ∧ t.latch = s.latch ++ ls ∧
      (s.mode = .eightBit →
        (evs.filter isWr).length = 11 ∧ (evs.filter isHold).length = 2 ∧ ls.length = 1 ∧ evs.length = 13) ∧
      (s.mode = .fourBit →
        (evs.filter isWr).length = 13 ∧ (evs.filter isHold).length = 4 ∧ ls.length = 2 ∧ evs.length = 17)

/-- R206, R208, R111: a SEND whose first failing primitive is the one at place `n`. Every earlier primitive is in TRACE
and its line at the level last driven, the failing write is in TRACE with its failure and leaves its line at X, no later
one is issued and no other line changes; RESULT is
IOError with that write's TRACE index; the latch events are those of the falling edges that came before. -/
def Obligations.FailedSendIsPrecise : Prop :=
  ∀ (i : Instr) (v : Byte) (asData : Bool) (s : State) (n : Nat) (p : Prim),
    carriedByte i = some (v, asData) → s.phase = .ready →
    FirstFails (sendBytePrims s.mode v asData) n p s →
    ∃ t, exec i s = .next t ∧
      t.result = some (.ioError (s.trace.length + n + 1)) ∧
      t.trace = s.trace ++ ((sendBytePrims s.mode v asData).take n).map (eventOf s .ok) ++
        [eventOf s .failed p] ∧
      t.latch = s.latch ++ (sentLatches s.mode v asData).take
        (((sendBytePrims s.mode v asData).take n).filter (fun q => decide (q = .wr .e .low))).length ∧
      (∀ sg d, p = .wr sg d → levelAt t.levels sg = .unknown) ∧
      (∀ sg, (∀ d, p ≠ .wr sg d) → levelAt t.levels sg =
        match lastDriven ((sendBytePrims s.mode v asData).take n) sg with
        | some d => driveLevel d
        | none => levelAt s.levels sg) ∧
      t.phase = .ready ∧ t.claimed = s.claimed ∧ t.cursor = s.cursor ∧ t.seq = s.seq

/-- R200, R202, R26: every SEND on a READY block ends READY, either with Ok, when no primitive failed, or with IOError at
the TRACE index of the first write that did. -/
def Obligations.SendEndsInOkOrIoError : Prop :=
  ∀ (i : Instr) (v : Byte) (asData : Bool) (s : State),
    carriedByte i = some (v, asData) → s.phase = .ready →
    ∃ t, exec i s = .next t ∧ t.phase = .ready ∧
      ((t.result = some .ok ∧ AllOk (sendBytePrims s.mode v asData) s) ∨
        (∃ n p, FirstFails (sendBytePrims s.mode v asData) n p s ∧ failureOf p = .ioError ∧
          t.result = some (.ioError (s.trace.length + n + 1)) ∧
          t.trace.length = s.trace.length + n + 1 ∧
          t.trace[s.trace.length + n]? = some (eventOf s .failed p)))

/-- R104 "Not written", R105, R172 to R179: what SEND_CMD, SEND_DATA and the eight command classes leave unchanged in
every phase and whatever the Port answers: everything but LVL of the driven signals, TRACE, LATCH and RESULT, of which
TRACE and LATCH only grow. -/
def Obligations.SendFrame : Prop :=
  ∀ (i : Instr) (v : Byte) (asData : Bool) (s t : State),
    carriedByte i = some (v, asData) → exec i s = .next t →
    t.mode = s.mode ∧ t.pinmap = s.pinmap ∧ t.geometry = s.geometry ∧ t.phase = s.phase ∧
    t.seq = s.seq ∧ t.claimed = s.claimed ∧ t.cursor = s.cursor ∧ t.requests = s.requests ∧
    t.port = s.port ∧
    (∀ sg, sg ∉ drv s.mode → levelAt t.levels sg = levelAt s.levels sg) ∧
    (∃ evs, t.trace = s.trace ++ evs) ∧ (∃ ls, t.latch = s.latch ++ ls)

/-- R109: no SEND ever makes a `MaybeLatch`, from any levels and with any answers of the Port. -/
def Obligations.SendLatchesAreCertain : Prop :=
  ∀ (i : Instr) (v : Byte) (asData : Bool) (s t : State),
    carriedByte i = some (v, asData) → exec i s = .next t →
    ∃ ls, t.latch = s.latch ++ ls ∧ ∀ l ∈ ls, isLatch l = true

/-! ### Refusals (R204) -/

/-- R204: each refusal, as the whole next state: only RESULT is written. A reserved word is taken off the caller's
queue. -/
def Obligations.RefusalsChangeOnlyResult : Prop :=
  (∀ s : State, s.phase ≠ .uninit →
    exec .init s = .next { s with result := some (.refused .notReady) }) ∧
  (∀ s : State, s.phase = .uninit → validPinMap s.pinmap s.mode = false →
    exec .init s = .next { s with result := some (.refused .invalidConfig) }) ∧
  (∀ (i : Instr) (v : Byte) (asData : Bool) (s : State),
    carriedByte i = some (v, asData) → s.phase ≠ .ready →
    exec i s = .next { s with result := some (.refused .notReady) }) ∧
  (∀ (s : State) (w : ReqBits) (rest : List ReqWord),
    s.requests = .req10 w :: rest → 2 ≤ w.toNat → w.toNat ≤ 0x1FF →
    step s = .next { s with requests := rest, result := some (.refused .reservedRequest) })

/-! ### INIT (41_init_sequencer.md) -/

/-- R22, R23: the driven signals in order; when a PINMAP is valid; that the entries of D0 to D3 are ignored in FourBit. -/
def Obligations.PinMapValidity : Prop :=
  drv .fourBit = [.rs, .e, .d4, .d5, .d6, .d7] ∧
  drv .eightBit = [.rs, .e, .d0, .d1, .d2, .d3, .d4, .d5, .d6, .d7] ∧
  (∀ (pm : PinMap) (m : Mode),
    validPinMap pm m = true ↔
      (∀ sg ∈ drv m, ∃ p, pinEntry pm sg = some p) ∧
      (∀ a ∈ drv m, ∀ b ∈ drv m, pinEntry pm a = pinEntry pm b → a = b)) ∧
  (∀ (pm : PinMap) (a b c d : Option PinId),
    validPinMap { pm with d0 := a, d1 := b, d2 := c, d3 := d } .fourBit = validPinMap pm .fourBit)

/-- R180: the bytes of steps 4 to 8, from the values of R170. -/
def Obligations.InitCommandBytes : Prop :=
  seqPrims cmdvTable .fourBit .s4 = sendBytePrims .fourBit 0x2C#8 false ∧
  seqPrims cmdvTable .eightBit .s4 = sendBytePrims .eightBit 0x3C#8 false ∧
  (∀ m : Mode,
    seqPrims cmdvTable m .s5 = sendBytePrims m 0x0E#8 false ∧
    seqPrims cmdvTable m .s6 = sendBytePrims m 0x06#8 false ∧
    seqPrims cmdvTable m .s7 = sendBytePrims m 0x14#8 false ∧
    seqPrims cmdvTable m .s8Clear = sendBytePrims m 0x01#8 false ∧
    seqPrims cmdvTable m .s8Pos = sendBytePrims m 0x80#8 false)

/-- R131: how SEQ advances when the step's primitives are all `ok`, and that on the first failing one it goes to ABORT
with the failure's kind and TRACE index. -/
def Obligations.SequencerAdvancesInOrder : Prop :=
  ∀ (c : CmdV) (s : State),
    (AllOk (seqPrims c s.mode s.seq) s →
      (∀ i, s.seq = .s1 i → i + 1 < (drv s.mode).length → (seqStep c s).seq = .s1 (i + 1)) ∧
      (∀ i, s.seq = .s1 i → i + 1 = (drv s.mode).length → (seqStep c s).seq = .s2) ∧
      (s.seq = .s2 → (seqStep c s).seq = .s3) ∧ (s.seq = .s3 → (seqStep c s).seq = .s4) ∧
      (s.seq = .s4 → (seqStep c s).seq = .s5) ∧ (s.seq = .s5 → (seqStep c s).seq = .s6) ∧
      (s.seq = .s6 → (seqStep c s).seq = .s7) ∧ (s.seq = .s7 → (seqStep c s).seq = .s8Clear) ∧
      (s.seq = .s8Clear → (seqStep c s).seq = .s8Pos) ∧
      (s.seq = .s8Pos → (seqStep c s).seq = .s8Mark) ∧
      (s.seq = .s8Mark → (seqStep c s).seq = .done)) ∧
    (∀ n p, FirstFails (seqPrims c s.mode s.seq) n p s →
      (seqStep c s).seq = .abort (failureOf p) (s.trace.length + n + 1))

/-- R132 to R142: the sequencer, a state machine over SEQ, does exactly what running the eight steps' primitives as one
straight program does, and ends it as R141 or R142 says. -/
def Obligations.SequencerRunsTheStraightProgram : Prop :=
  ∀ s : State, s.phase = .uninit → validPinMap s.pinmap s.mode = true →
    exec .init s = .next
      (match runPrims (initProgram s.mode) s with
        | .ok t =>
          { t with phase := .ready, seq := .idle, cursor := some ⟨0, 0, true⟩, result := some .ok }
        | .fail k j t => initAbort k j t)

/-- R130, R132 to R141, R231: in UNINIT with a valid PINMAP, when no primitive fails, INIT leaves the state written out in
`afterInit`. -/
def Obligations.InitBringsTheBlockReady : Prop :=
  ∀ s : State, s.phase = .uninit → validPinMap s.pinmap s.mode = true →
    AllOk (initProgram s.mode) s → exec .init s = .next (afterInit s)

/-- R148: the LATCH list after a successful INIT of a block whose levels are X and that has latched nothing. -/
def Obligations.InitLatchList : Prop :=
  ∀ s : State, s.phase = .uninit → validPinMap s.pinmap s.mode = true →
    s.levels = Levels.allUnknown → s.latch = [] → AllOk (initProgram s.mode) s →
    ∃ t, exec .init s = .next t ∧
      (s.mode = .fourBit →
        t.latch = .maybeLatch .low (.bus4 .unknown .unknown .unknown .unknown) ::
          [0x3#4, 0x3#4, 0x3#4, 0x2#4, 0x2#4, 0xC#4, 0x0#4, 0xE#4, 0x0#4, 0x6#4, 0x1#4, 0x4#4, 0x0#4,
            0x1#4, 0x8#4, 0x0#4].map (fun n => .latch .low (nibbleBus n))) ∧
      (s.mode = .eightBit →
        t.latch = .maybeLatch .low (.bus8 .unknown .unknown .unknown .unknown .unknown .unknown .unknown
            .unknown) ::
          [0x30#8, 0x30#8, 0x30#8, 0x30#8, 0x3C#8, 0x0E#8, 0x06#8, 0x14#8, 0x01#8, 0x80#8].map
            (fun v => .latch .low (byteBus v)))

/-- R147: the counts of a successful INIT. -/
def Obligations.InitEventCounts : Prop :=
  ∀ s : State, s.phase = .uninit → validPinMap s.pinmap s.mode = true →
    AllOk (initProgram s.mode) s →
    ∃ t evs, exec .init s = .next t ∧ t.trace = s.trace ++ evs ∧ (evs.filter isRel).length = 0 ∧
      (s.mode = .fourBit →
        (evs.filter isCfg).length = 6 ∧ (evs.filter isWr).length = 96 ∧
        (evs.filter isHold).length = 32 ∧ evs.length = 134 ∧
        (evs.filter (fun ev => decide (ev = .wr (s.pin .e) .high .ok))).length = 16) ∧
      (s.mode = .eightBit →
        (evs.filter isCfg).length = 10 ∧ (evs.filter isWr).length = 88 ∧
        (evs.filter isHold).length = 20 ∧ evs.length = 118 ∧
        (evs.filter (fun ev => decide (ev = .wr (s.pin .e) .high .ok))).length = 10)

/-- R207 with R142, R206: an INIT whose first failing primitive is the one at place `n`. The primitives before it are issued, the
failing one is in TRACE with its failure, then exactly the claimed pins are released in claim order; the block is
RELEASED, SEQ is IDLE, nothing is claimed, CURSOR and MODE are not written, RESULT names the failure. -/
def Obligations.FailedInitReleasesEveryClaim : Prop :=
  ∀ (s : State) (n : Nat) (p : Prim), s.phase = .uninit → validPinMap s.pinmap s.mode = true →
    FirstFails (initProgram s.mode) n p s →
    ∃ t, exec .init s = .next t ∧ t.phase = .released ∧ t.seq = .idle ∧ t.claimed = [] ∧
      t.cursor = s.cursor ∧ t.mode = s.mode ∧
      t.result = some (.initError (failureOf p) (s.trace.length + n + 1)) ∧
      t.trace = s.trace ++ ((initProgram s.mode).take n).map (eventOf s .ok) ++
        [eventOf s .failed p] ++
        (s.claimed ++ (((initProgram s.mode).take n).filterMap claimOf).map s.pin).map Event.rel

/-- R232: the state after an INIT that fails, from a block that holds nothing (R37). -/
def Obligations.FailedInitLeavesNothing : Prop :=
  ∀ (s : State) (n : Nat) (p : Prim), s.phase = .uninit → validPinMap s.pinmap s.mode = true →
    s.claimed = [] → s.levels = Levels.allUnknown → s.cursor = none →
    FirstFails (initProgram s.mode) n p s →
    ∃ t, exec .init s = .next t ∧ t.phase = .released ∧ t.seq = .idle ∧ t.claimed = [] ∧
      t.levels = Levels.allUnknown ∧ t.cursor = none ∧
      t.result = some (.initError (failureOf p) (s.trace.length + n + 1))

/-- R143: a failing claim of the (k+1)-th signal releases exactly k pins; a failure after the last claim releases all. -/
def Obligations.FailedInitReleaseCount : Prop :=
  ∀ (s : State) (n : Nat) (p : Prim), s.phase = .uninit → validPinMap s.pinmap s.mode = true →
    s.claimed = [] → FirstFails (initProgram s.mode) n p s →
    ∃ t evs, exec .init s = .next t ∧ t.trace = s.trace ++ evs ∧ t.claimed = [] ∧
      (∀ k sg, (drv s.mode)[k]? = some sg → n = 2 * k → p = .cfg sg →
        (evs.filter isRel).length = k) ∧
      (2 * ((drv s.mode).length - 1) < n → (evs.filter isRel).length = (drv s.mode).length)

/-- R130, R141, R142: every INIT of an UNINIT block with a valid PINMAP ends either READY with Ok, when no primitive
failed, or RELEASED with InitError at the first that did: "no partial controller". -/
def Obligations.InitEndsReadyOrReleased : Prop :=
  ∀ s : State, s.phase = .uninit → validPinMap s.pinmap s.mode = true →
    ∃ t, exec .init s = .next t ∧
      ((t.phase = .ready ∧ t.result = some .ok ∧ AllOk (initProgram s.mode) s) ∨
        (∃ n p, FirstFails (initProgram s.mode) n p s ∧ t.phase = .released ∧ t.claimed = [] ∧
          t.result = some (.initError (failureOf p) (s.trace.length + n + 1))))

/-! ### TEARDOWN -/

/-- R144, R145: TEARDOWN of a READY block releases every claimed pin in claim order, leaves X at the driven signals of
those pins, empties CLAIMED, ends RELEASED with Ok; elsewhere it issues no primitive and only PHASE and RESULT change. -/
def Obligations.TeardownReleasesEveryClaim : Prop :=
  (∀ s : State, s.phase = .ready →
    ∃ lv, exec .teardown s = .next
        { s with
          claimed := [], levels := lv, trace := s.trace ++ s.claimed.map Event.rel
          phase := .released, result := some .ok } ∧
      ∀ sg, levelAt lv sg =
        if sg ∈ drv s.mode ∧ s.pin sg ∈ s.claimed then .unknown else levelAt s.levels sg) ∧
  (∀ s : State, s.phase ≠ .ready →
    exec .teardown s = .next { s with phase := .released, result := some .ok })

/-- R233: the state after TEARDOWN of a READY block that holds its driven pins and has driven no other; and in every
RELEASED block, so at every later request and step, what is done depends in no way on the CURSOR it keeps. -/
def Obligations.TeardownState : Prop :=
  (∀ s : State, s.phase = .ready → s.claimed = s.drvPins →
    (∀ sg, sg ∉ drv s.mode → levelAt s.levels sg = .unknown) →
    ∃ t, exec .teardown s = .next t ∧ t.phase = .released ∧ t.claimed = [] ∧
      t.levels = Levels.allUnknown ∧ t.result = some .ok ∧ t.cursor = s.cursor) ∧
  (∀ (s : State) (c : Option CursorState), s.phase = .released →
    (∀ i : Instr, ∃ u, exec i s = .next u ∧ u.phase = .released ∧ u.cursor = s.cursor ∧
      exec i { s with cursor := c } = .next { u with cursor := c }) ∧
    (∃ u, step s = .next u ∧ u.phase = .released ∧ u.cursor = s.cursor ∧
      step { s with cursor := c } = .next { u with cursor := c }))

/-! ### The machine as a whole -/

/-- R37, R230: what a newly constructed block holds; reset is a construction. -/
def Obligations.ConstructionState : Prop :=
  (∀ (m : Mode) (pm : PinMap) (g : Geometry) (s : State), s = State.construct m pm g →
    s.mode = m ∧ s.pinmap = pm ∧ s.geometry = g ∧ s.phase = .uninit ∧ s.seq = .idle ∧
    s.claimed = [] ∧ (∀ sg, levelAt s.levels sg = .unknown) ∧ s.trace = [] ∧ s.latch = [] ∧
    s.cursor = none ∧ s.readCursor = .error .cursorHasNoValue ∧ s.result = none) ∧
  ∃ m pm g, State.reset = State.construct m pm g

/-- R21, R23, R24, R6: every request runs to a next state, from every state, and none of them writes MODE, PINMAP or
GEOMETRY, takes a request of the caller's, or changes what the Port will answer; a step does not stop either. -/
def Obligations.EveryRequestCompletes : Prop :=
  (∀ (i : Instr) (s : State),
    ∃ t, exec i s = .next t ∧ t.mode = s.mode ∧ t.pinmap = s.pinmap ∧ t.geometry = s.geometry ∧
      t.requests = s.requests ∧ t.port = s.port) ∧
  (∀ s : State, ∃ t, step s = .next t ∧ t.mode = s.mode ∧ t.pinmap = s.pinmap ∧
    t.geometry = s.geometry ∧ t.port = s.port)

/-- R21: MODE and PINMAP "never change after construction": no request and no step writes them. -/
def Obligations.ModeAndPinMapNeverChange : Prop :=
  (∀ (i : Instr) (s t : State), exec i s = .next t → t.mode = s.mode ∧ t.pinmap = s.pinmap) ∧
  (∀ s t : State, step s = .next t → t.mode = s.mode ∧ t.pinmap = s.pinmap)

/-- R26: the table of PHASE's transitions. -/
def Obligations.PhaseFollowsItsTable : Prop :=
  ∀ (i : Instr) (s t : State), exec i s = .next t →
    (s.phase = .uninit → i = .init → validPinMap s.pinmap s.mode = true →
      (t.phase = .ready ∧ t.result = some .ok) ∨
      (t.phase = .released ∧ ∃ k j, t.result = some (.initError k j))) ∧
    (s.phase = .ready → carriedByte i ≠ none →
      t.phase = .ready ∧ (t.result = some .ok ∨ ∃ j, t.result = some (.ioError j))) ∧
    (i = .teardown → t.phase = .released ∧ t.result = some .ok) ∧
    (i = .teardown → s.phase ≠ .ready → t.trace = s.trace) ∧
    ((s.phase ≠ .uninit ∧ i = .init) ∨
      (s.phase = .uninit ∧ i = .init ∧ validPinMap s.pinmap s.mode = false) ∨
      (s.phase ≠ .ready ∧ carriedByte i ≠ none) →
      t.phase = s.phase ∧ ∃ r, t.result = some (.refused r))

/-- R146 with R145, R204, R26: a RELEASED block stays so: no request makes it issue a primitive, claim a pin, latch anything or change its bit
mode or pin map, and INIT and every SEND are refused with NotReady. -/
def Obligations.ReleasedForGood : Prop :=
  (∀ s t : State, s.phase = .released → step s = .next t →
    t.phase = .released ∧ t.trace = s.trace ∧ t.latch = s.latch ∧ t.claimed = s.claimed ∧
    t.levels = s.levels ∧ t.cursor = s.cursor ∧ t.mode = s.mode ∧ t.pinmap = s.pinmap) ∧
  (∀ (i : Instr) (s t : State), s.phase = .released → i ≠ .teardown → exec i s = .next t →
    t.result = some (.refused .notReady))

/-- R30: TRACE and LATCH are never cleared; a step only appends to them. -/
def Obligations.TraceAndLatchOnlyGrow : Prop :=
  ∀ s t : State, step s = .next t →
    (∃ evs, t.trace = s.trace ++ evs) ∧ (∃ ls, t.latch = s.latch ++ ls)

/-- R51, R107: whatever the request and the Port's answers, every primitive issued is on a pin of PINMAP[DRV(MODE)], given
that the claimed pins are such pins, and no signal outside DRV(MODE) is ever driven: in FourBit, D0 to D3. -/
def Obligations.OnlyDrivenPinsAreTouched : Prop :=
  ∀ (i : Instr) (s t : State), (∀ p ∈ s.claimed, p ∈ s.drvPins) → exec i s = .next t →
    (∃ evs, t.trace = s.trace ++ evs ∧ ∀ ev ∈ evs, ∀ p, eventPin ev = some p → p ∈ s.drvPins) ∧
    (∀ sg, sg ∉ drv s.mode → levelAt t.levels sg = levelAt s.levels sg) ∧
    (s.mode = .fourBit →
      t.levels.d0 = s.levels.d0 ∧ t.levels.d1 = s.levels.d1 ∧ t.levels.d2 = s.levels.d2 ∧
      t.levels.d3 = s.levels.d3)

/-- R60: no pin is claimed twice by one block: between requests the `PortCfg` events of TRACE are on distinct pins, and
every step of a sound block keeps that. -/
def Obligations.PinsAreClaimedAtMostOnce : Prop :=
  ∀ s t : State, Inv s → ((s.trace.filter isCfg).map eventPin).Nodup → step s = .next t →
    ((t.trace.filter isCfg).map eventPin).Nodup

/-- R32, R34: CURSOR is written by INIT's step 8 alone, with row 0, column 0, isClear true; reading it faults exactly
while it has no value. -/
def Obligations.CursorIsWrittenByStepEightOnly : Prop :=
  (∀ (i : Instr) (s t : State), exec i s = .next t →
    t.cursor = s.cursor ∨
      (i = .init ∧ s.phase = .uninit ∧ t.phase = .ready ∧ t.cursor = some ⟨0, 0, true⟩)) ∧
  (∀ s : State, s.readCursor = .error .cursorHasNoValue ↔ s.cursor = none)

/-- R200 to R202: a failure result names a primitive this request issued, one that failed: a `PortCfg` of INIT for
ConfigurationError, a `PortWr` for IOError. -/
def Obligations.FailureResultsNameTheirPrimitive : Prop :=
  ∀ (i : Instr) (s t : State) (j : Nat), exec i s = .next t →
    (t.result = some (.initError .configurationError j) →
      i = .init ∧ s.trace.length < j ∧ ∃ p, t.trace[j - 1]? = some (.cfg p .failed)) ∧
    (t.result = some (.initError .ioError j) →
      i = .init ∧ s.trace.length < j ∧ ∃ p d, t.trace[j - 1]? = some (.wr p d .failed)) ∧
    (t.result = some (.ioError j) →
      carriedByte i ≠ none ∧ s.trace.length < j ∧ ∃ p d, t.trace[j - 1]? = some (.wr p d .failed))

/-- R24: GEOMETRY is read by no request: with another GEOMETRY every request does the same. -/
def Obligations.GeometryIsReadByNoRequest : Prop :=
  ∀ (i : Instr) (s t : State) (g : Geometry), exec i s = .next t →
    exec i { s with geometry := g } = .next { t with geometry := g }

/-- R252: the lower bounds on time that the holds alone give, with T_HOLD_MIN = 1 ms. -/
def Obligations.HoldTimeLowerBounds : Prop :=
  (∀ s : State, AllOk strobePrims s →
    ∃ t evs, runPrims strobePrims s = .ok t ∧ t.trace = s.trace ++ evs ∧ holdTimeMs evs = 2) ∧
  (∀ (i : Instr) (v : Byte) (asData : Bool) (s : State),
    carriedByte i = some (v, asData) → s.phase = .ready → AllOk (sendBytePrims s.mode v asData) s →
    ∃ t evs, exec i s = .next t ∧ t.trace = s.trace ++ evs ∧
      holdTimeMs evs = match s.mode with | .eightBit => 2 | .fourBit => 4) ∧
  (∀ s : State, s.phase = .uninit → validPinMap s.pinmap s.mode = true →
    AllOk (initProgram s.mode) s →
    ∃ t evs, exec .init s = .next t ∧ t.trace = s.trace ++ evs ∧
      holdTimeMs evs = match s.mode with | .eightBit => 20 | .fourBit => 32) ∧
  (∀ s : State, ∃ t evs, exec .teardown s = .next t ∧ t.trace = s.trace ++ evs ∧ holdTimeMs evs = 0)

/-- R27, R51, R109, R231 to R233: every step, from every state, keeps the invariant of a block between requests. -/
def Obligations.StepKeepsTheBlockSound : Prop :=
  ∀ s t : State, Inv s → step s = .next t → Inv t

/-- R37: a newly constructed block meets the invariant, whatever its construction inputs; so does reset. -/
def Obligations.NewBlockIsSound : Prop :=
  (∀ (m : Mode) (pm : PinMap) (g : Geometry), Inv (State.construct m pm g)) ∧ Inv State.reset
end

