-- ==== Sys2Proof/Laws/State.lean ====
section
/-! SUPPORT. One lemma per field per update of the state. -/

namespace Sys2Proof.Machine

variable (s : State)

section Emit
variable (ev : Event)
@[simp] theorem State.emit_mode : (s.emit ev).mode = s.mode := rfl
@[simp] theorem State.emit_pinmap : (s.emit ev).pinmap = s.pinmap := rfl
@[simp] theorem State.emit_geometry : (s.emit ev).geometry = s.geometry := rfl
@[simp] theorem State.emit_phase : (s.emit ev).phase = s.phase := rfl
@[simp] theorem State.emit_seq : (s.emit ev).seq = s.seq := rfl
@[simp] theorem State.emit_claimed : (s.emit ev).claimed = s.claimed := rfl
@[simp] theorem State.emit_levels : (s.emit ev).levels = s.levels := rfl
@[simp] theorem State.emit_trace : (s.emit ev).trace = s.trace ++ [ev] := rfl
@[simp] theorem State.emit_latch : (s.emit ev).latch = s.latch := rfl
@[simp] theorem State.emit_cursor : (s.emit ev).cursor = s.cursor := rfl
@[simp] theorem State.emit_result : (s.emit ev).result = s.result := rfl
@[simp] theorem State.emit_requests : (s.emit ev).requests = s.requests := rfl
@[simp] theorem State.emit_port : (s.emit ev).port = s.port := rfl
@[simp] theorem State.emit_pin (sg : Signal) : (s.emit ev).pin sg = s.pin sg := rfl
@[simp] theorem State.emit_drvPins : (s.emit ev).drvPins = s.drvPins := rfl
@[simp] theorem State.emit_portAnswer (j : Nat) : (s.emit ev).portAnswer j = s.portAnswer j := rfl
end Emit

section SetLevels
variable (lv : Levels)
@[simp] theorem State.setLevels_mode : (s.setLevels lv).mode = s.mode := rfl
@[simp] theorem State.setLevels_pinmap : (s.setLevels lv).pinmap = s.pinmap := rfl
@[simp] theorem State.setLevels_geometry : (s.setLevels lv).geometry = s.geometry := rfl
@[simp] theorem State.setLevels_phase : (s.setLevels lv).phase = s.phase := rfl
@[simp] theorem State.setLevels_seq : (s.setLevels lv).seq = s.seq := rfl
@[simp] theorem State.setLevels_claimed : (s.setLevels lv).claimed = s.claimed := rfl
@[simp] theorem State.setLevels_levels : (s.setLevels lv).levels = lv := rfl
@[simp] theorem State.setLevels_trace : (s.setLevels lv).trace = s.trace := rfl
@[simp] theorem State.setLevels_latch : (s.setLevels lv).latch = s.latch := rfl
@[simp] theorem State.setLevels_cursor : (s.setLevels lv).cursor = s.cursor := rfl
@[simp] theorem State.setLevels_result : (s.setLevels lv).result = s.result := rfl
@[simp] theorem State.setLevels_requests : (s.setLevels lv).requests = s.requests := rfl
@[simp] theorem State.setLevels_port : (s.setLevels lv).port = s.port := rfl
@[simp] theorem State.setLevels_pin (sg : Signal) : (s.setLevels lv).pin sg = s.pin sg := rfl
@[simp] theorem State.setLevels_drvPins : (s.setLevels lv).drvPins = s.drvPins := rfl
@[simp] theorem State.setLevels_portAnswer (j : Nat) : (s.setLevels lv).portAnswer j = s.portAnswer j := rfl
end SetLevels

section AddLatch
variable (ls : List Latch)
@[simp] theorem State.addLatch_mode : (s.addLatch ls).mode = s.mode := rfl
@[simp] theorem State.addLatch_pinmap : (s.addLatch ls).pinmap = s.pinmap := rfl
@[simp] theorem State.addLatch_geometry : (s.addLatch ls).geometry = s.geometry := rfl
@[simp] theorem State.addLatch_phase : (s.addLatch ls).phase = s.phase := rfl
@[simp] theorem State.addLatch_seq : (s.addLatch ls).seq = s.seq := rfl
@[simp] theorem State.addLatch_claimed : (s.addLatch ls).claimed = s.claimed := rfl
@[simp] theorem State.addLatch_levels : (s.addLatch ls).levels = s.levels := rfl
@[simp] theorem State.addLatch_trace : (s.addLatch ls).trace = s.trace := rfl
@[simp] theorem State.addLatch_latch : (s.addLatch ls).latch = s.latch ++ ls := rfl
@[simp] theorem State.addLatch_cursor : (s.addLatch ls).cursor = s.cursor := rfl
@[simp] theorem State.addLatch_result : (s.addLatch ls).result = s.result := rfl
@[simp] theorem State.addLatch_requests : (s.addLatch ls).requests = s.requests := rfl
@[simp] theorem State.addLatch_port : (s.addLatch ls).port = s.port := rfl
@[simp] theorem State.addLatch_pin (sg : Signal) : (s.addLatch ls).pin sg = s.pin sg := rfl
@[simp] theorem State.addLatch_drvPins : (s.addLatch ls).drvPins = s.drvPins := rfl
@[simp] theorem State.addLatch_portAnswer (j : Nat) : (s.addLatch ls).portAnswer j = s.portAnswer j := rfl
end AddLatch

section SetClaimed
variable (ps : List PinId)
@[simp] theorem State.setClaimed_mode : (s.setClaimed ps).mode = s.mode := rfl
@[simp] theorem State.setClaimed_pinmap : (s.setClaimed ps).pinmap = s.pinmap := rfl
@[simp] theorem State.setClaimed_geometry : (s.setClaimed ps).geometry = s.geometry := rfl
@[simp] theorem State.setClaimed_phase : (s.setClaimed ps).phase = s.phase := rfl
@[simp] theorem State.setClaimed_seq : (s.setClaimed ps).seq = s.seq := rfl
@[simp] theorem State.setClaimed_claimed : (s.setClaimed ps).claimed = ps := rfl
@[simp] theorem State.setClaimed_levels : (s.setClaimed ps).levels = s.levels := rfl
@[simp] theorem State.setClaimed_trace : (s.setClaimed ps).trace = s.trace := rfl
@[simp] theorem State.setClaimed_latch : (s.setClaimed ps).latch = s.latch := rfl
@[simp] theorem State.setClaimed_cursor : (s.setClaimed ps).cursor = s.cursor := rfl
@[simp] theorem State.setClaimed_result : (s.setClaimed ps).result = s.result := rfl
@[simp] theorem State.setClaimed_requests : (s.setClaimed ps).requests = s.requests := rfl
@[simp] theorem State.setClaimed_port : (s.setClaimed ps).port = s.port := rfl
@[simp] theorem State.setClaimed_pin (sg : Signal) : (s.setClaimed ps).pin sg = s.pin sg := rfl
@[simp] theorem State.setClaimed_drvPins : (s.setClaimed ps).drvPins = s.drvPins := rfl
@[simp] theorem State.setClaimed_portAnswer (j : Nat) : (s.setClaimed ps).portAnswer j = s.portAnswer j := rfl
end SetClaimed

section SetPhase
variable (p : Phase)
@[simp] theorem State.setPhase_mode : (s.setPhase p).mode = s.mode := rfl
@[simp] theorem State.setPhase_pinmap : (s.setPhase p).pinmap = s.pinmap := rfl
@[simp] theorem State.setPhase_geometry : (s.setPhase p).geometry = s.geometry := rfl
@[simp] theorem State.setPhase_phase : (s.setPhase p).phase = p := rfl
@[simp] theorem State.setPhase_seq : (s.setPhase p).seq = s.seq := rfl
@[simp] theorem State.setPhase_claimed : (s.setPhase p).claimed = s.claimed := rfl
@[simp] theorem State.setPhase_levels : (s.setPhase p).levels = s.levels := rfl
@[simp] theorem State.setPhase_trace : (s.setPhase p).trace = s.trace := rfl
@[simp] theorem State.setPhase_latch : (s.setPhase p).latch = s.latch := rfl
@[simp] theorem State.setPhase_cursor : (s.setPhase p).cursor = s.cursor := rfl
@[simp] theorem State.setPhase_result : (s.setPhase p).result = s.result := rfl
@[simp] theorem State.setPhase_requests : (s.setPhase p).requests = s.requests := rfl
@[simp] theorem State.setPhase_port : (s.setPhase p).port = s.port := rfl
@[simp] theorem State.setPhase_pin (sg : Signal) : (s.setPhase p).pin sg = s.pin sg := rfl
@[simp] theorem State.setPhase_drvPins : (s.setPhase p).drvPins = s.drvPins := rfl
@[simp] theorem State.setPhase_portAnswer (j : Nat) : (s.setPhase p).portAnswer j = s.portAnswer j := rfl
end SetPhase

section SetSeq
variable (q : Seq)
@[simp] theorem State.setSeq_mode : (s.setSeq q).mode = s.mode := rfl
@[simp] theorem State.setSeq_pinmap : (s.setSeq q).pinmap = s.pinmap := rfl
@[simp] theorem State.setSeq_geometry : (s.setSeq q).geometry = s.geometry := rfl
@[simp] theorem State.setSeq_phase : (s.setSeq q).phase = s.phase := rfl
@[simp] theorem State.setSeq_seq : (s.setSeq q).seq = q := rfl
@[simp] theorem State.setSeq_claimed : (s.setSeq q).claimed = s.claimed := rfl
@[simp] theorem State.setSeq_levels : (s.setSeq q).levels = s.levels := rfl
@[simp] theorem State.setSeq_trace : (s.setSeq q).trace = s.trace := rfl
@[simp] theorem State.setSeq_latch : (s.setSeq q).latch = s.latch := rfl
@[simp] theorem State.setSeq_cursor : (s.setSeq q).cursor = s.cursor := rfl
@[simp] theorem State.setSeq_result : (s.setSeq q).result = s.result := rfl
@[simp] theorem State.setSeq_requests : (s.setSeq q).requests = s.requests := rfl
@[simp] theorem State.setSeq_port : (s.setSeq q).port = s.port := rfl
@[simp] theorem State.setSeq_pin (sg : Signal) : (s.setSeq q).pin sg = s.pin sg := rfl
@[simp] theorem State.setSeq_drvPins : (s.setSeq q).drvPins = s.drvPins := rfl
@[simp] theorem State.setSeq_portAnswer (j : Nat) : (s.setSeq q).portAnswer j = s.portAnswer j := rfl
end SetSeq

section SetCursor
variable (c : CursorState)
@[simp] theorem State.setCursor_mode : (s.setCursor c).mode = s.mode := rfl
@[simp] theorem State.setCursor_pinmap : (s.setCursor c).pinmap = s.pinmap := rfl
@[simp] theorem State.setCursor_geometry : (s.setCursor c).geometry = s.geometry := rfl
@[simp] theorem State.setCursor_phase : (s.setCursor c).phase = s.phase := rfl
@[simp] theorem State.setCursor_seq : (s.setCursor c).seq = s.seq := rfl
@[simp] theorem State.setCursor_claimed : (s.setCursor c).claimed = s.claimed := rfl
@[simp] theorem State.setCursor_levels : (s.setCursor c).levels = s.levels := rfl
@[simp] theorem State.setCursor_trace : (s.setCursor c).trace = s.trace := rfl
@[simp] theorem State.setCursor_latch : (s.setCursor c).latch = s.latch := rfl
@[simp] theorem State.setCursor_cursor : (s.setCursor c).cursor = some c := rfl
@[simp] theorem State.setCursor_result : (s.setCursor c).result = s.result := rfl
@[simp] theorem State.setCursor_requests : (s.setCursor c).requests = s.requests := rfl
@[simp] theorem State.setCursor_port : (s.setCursor c).port = s.port := rfl
@[simp] theorem State.setCursor_pin (sg : Signal) : (s.setCursor c).pin sg = s.pin sg := rfl
@[simp] theorem State.setCursor_drvPins : (s.setCursor c).drvPins = s.drvPins := rfl
@[simp] theorem State.setCursor_portAnswer (j : Nat) : (s.setCursor c).portAnswer j = s.portAnswer j := rfl
end SetCursor

section SetResult
variable (r : Result)
@[simp] theorem State.setResult_mode : (s.setResult r).mode = s.mode := rfl
@[simp] theorem State.setResult_pinmap : (s.setResult r).pinmap = s.pinmap := rfl
@[simp] theorem State.setResult_geometry : (s.setResult r).geometry = s.geometry := rfl
@[simp] theorem State.setResult_phase : (s.setResult r).phase = s.phase := rfl
@[simp] theorem State.setResult_seq : (s.setResult r).seq = s.seq := rfl
@[simp] theorem State.setResult_claimed : (s.setResult r).claimed = s.claimed := rfl
@[simp] theorem State.setResult_levels : (s.setResult r).levels = s.levels := rfl
@[simp] theorem State.setResult_trace : (s.setResult r).trace = s.trace := rfl
@[simp] theorem State.setResult_latch : (s.setResult r).latch = s.latch := rfl
@[simp] theorem State.setResult_cursor : (s.setResult r).cursor = s.cursor := rfl
@[simp] theorem State.setResult_result : (s.setResult r).result = some r := rfl
@[simp] theorem State.setResult_requests : (s.setResult r).requests = s.requests := rfl
@[simp] theorem State.setResult_port : (s.setResult r).port = s.port := rfl
@[simp] theorem State.setResult_pin (sg : Signal) : (s.setResult r).pin sg = s.pin sg := rfl
@[simp] theorem State.setResult_drvPins : (s.setResult r).drvPins = s.drvPins := rfl
@[simp] theorem State.setResult_portAnswer (j : Nat) : (s.setResult r).portAnswer j = s.portAnswer j := rfl
end SetResult

section SetRequests
variable (ws : List ReqWord)
@[simp] theorem State.setRequests_mode : (s.setRequests ws).mode = s.mode := rfl
@[simp] theorem State.setRequests_pinmap : (s.setRequests ws).pinmap = s.pinmap := rfl
@[simp] theorem State.setRequests_geometry : (s.setRequests ws).geometry = s.geometry := rfl
@[simp] theorem State.setRequests_phase : (s.setRequests ws).phase = s.phase := rfl
@[simp] theorem State.setRequests_seq : (s.setRequests ws).seq = s.seq := rfl
@[simp] theorem State.setRequests_claimed : (s.setRequests ws).claimed = s.claimed := rfl
@[simp] theorem State.setRequests_levels : (s.setRequests ws).levels = s.levels := rfl
@[simp] theorem State.setRequests_trace : (s.setRequests ws).trace = s.trace := rfl
@[simp] theorem State.setRequests_latch : (s.setRequests ws).latch = s.latch := rfl
@[simp] theorem State.setRequests_cursor : (s.setRequests ws).cursor = s.cursor := rfl
@[simp] theorem State.setRequests_result : (s.setRequests ws).result = s.result := rfl
@[simp] theorem State.setRequests_requests : (s.setRequests ws).requests = ws := rfl
@[simp] theorem State.setRequests_port : (s.setRequests ws).port = s.port := rfl
@[simp] theorem State.setRequests_pin (sg : Signal) : (s.setRequests ws).pin sg = s.pin sg := rfl
@[simp] theorem State.setRequests_drvPins : (s.setRequests ws).drvPins = s.drvPins := rfl
@[simp] theorem State.setRequests_portAnswer (j : Nat) : (s.setRequests ws).portAnswer j = s.portAnswer j := rfl
end SetRequests

@[simp] theorem markClear_eq : markClear s = s.setCursor ⟨0, 0, true⟩ := rfl

end Sys2Proof.Machine
end

