-- ==== Sys2Proof/Laws/Ops.lean ====
section
/-! SUPPORT. What running primitives can do, once: all `ok`, or the first failure; and what each leaves. -/

namespace Sys2Proof.Machine

open Sys2Proof.Safety

/-- The state a primitive leaves when the Port answers `ok`. -/
def okPrim (p : Prim) (s : State) : State :=
  match p with
  | .cfg sg => (s.emit (.cfg (s.pin sg) .ok)).setClaimed (s.claimed ++ [s.pin sg])
  | .wr sg d =>
    ((s.emit (.wr (s.pin sg) d .ok)).addLatch (latchOnWrite s sg d)).setLevels
      (setLevelAt s.levels sg (driveLevel d))
  | .hold => s.emit .hold

/-- The state a primitive leaves when the Port's answer is its failure; `Hold` has none. -/
def failPrim (p : Prim) (s : State) : State :=
  match p with
  | .cfg sg => s.emit (.cfg (s.pin sg) .failed)
  | .wr sg d =>
    (s.emit (.wr (s.pin sg) d .failed)).setLevels (setLevelAt s.levels sg .unknown)
  | .hold => s.emit .hold

/-- The state a run leaves when no primitive fails. -/
def okRun (ps : List Prim) (s : State) : State :=
  match ps with
  | [] => s
  | p :: rest => okRun rest (okPrim p s)

@[simp] theorem okRun_nil (s : State) : okRun [] s = s := rfl
@[simp] theorem okRun_cons (p : Prim) (ps : List Prim) (s : State) :
    okRun (p :: ps) s = okRun ps (okPrim p s) := rfl

theorem okRun_append (ps qs : List Prim) (s : State) :
    okRun (ps ++ qs) s = okRun qs (okRun ps s) := by
  induction ps generalizing s with
  | nil => rfl
  | cons p ps ih => exact ih _

/-- A primitive succeeds, or asks the Port and fails. -/
theorem runPrim_cases (p : Prim) (s : State) :
    (runPrim p s = .ok (okPrim p s) ∧ (asks p = true → s.portAnswer s.nextIndex = .ok)) ∨
    (runPrim p s = .fail (failureOf p) s.nextIndex (failPrim p s) ∧ asks p = true ∧
      s.portAnswer s.nextIndex = .failed) := by
  cases p with
  | cfg sg =>
    cases h : s.portAnswer s.nextIndex <;>
      simp [runPrim, portCfg, h, okPrim, failPrim, asks, failureOf]
  | wr sg d =>
    cases h : s.portAnswer s.nextIndex <;>
      simp [runPrim, portWr, h, okPrim, failPrim, asks, failureOf]
  | hold => simp [runPrim, Machine.hold, okPrim, asks]

/-! ### What a successful primitive leaves -/

section OkPrim
variable (p : Prim) (s : State)

@[simp] theorem okPrim_mode : (okPrim p s).mode = s.mode := by cases p <;> rfl
@[simp] theorem okPrim_pinmap : (okPrim p s).pinmap = s.pinmap := by cases p <;> rfl
@[simp] theorem okPrim_geometry : (okPrim p s).geometry = s.geometry := by cases p <;> rfl
@[simp] theorem okPrim_phase : (okPrim p s).phase = s.phase := by cases p <;> rfl
@[simp] theorem okPrim_seq : (okPrim p s).seq = s.seq := by cases p <;> rfl
@[simp] theorem okPrim_cursor : (okPrim p s).cursor = s.cursor := by cases p <;> rfl
@[simp] theorem okPrim_result : (okPrim p s).result = s.result := by cases p <;> rfl
@[simp] theorem okPrim_requests : (okPrim p s).requests = s.requests := by cases p <;> rfl
@[simp] theorem okPrim_port : (okPrim p s).port = s.port := by cases p <;> rfl
@[simp] theorem okPrim_pin (sg : Signal) : (okPrim p s).pin sg = s.pin sg := by cases p <;> rfl
@[simp] theorem okPrim_drvPins : (okPrim p s).drvPins = s.drvPins := by cases p <;> rfl
@[simp] theorem okPrim_portAnswer (j : Nat) : (okPrim p s).portAnswer j = s.portAnswer j := by
  cases p <;> rfl
@[simp] theorem okPrim_trace : (okPrim p s).trace = s.trace ++ [eventOf s .ok p] := by
  cases p <;> rfl

theorem okPrim_claimed : (okPrim p s).claimed = s.claimed ++ ((claimOf p).map s.pin).toList := by
  cases p <;> simp [okPrim, claimOf]

end OkPrim

/-! ### What a failing primitive leaves -/

section FailPrim
variable (p : Prim) (s : State)

@[simp] theorem failPrim_mode : (failPrim p s).mode = s.mode := by cases p <;> rfl
@[simp] theorem failPrim_pinmap : (failPrim p s).pinmap = s.pinmap := by cases p <;> rfl
@[simp] theorem failPrim_geometry : (failPrim p s).geometry = s.geometry := by cases p <;> rfl
@[simp] theorem failPrim_phase : (failPrim p s).phase = s.phase := by cases p <;> rfl
@[simp] theorem failPrim_seq : (failPrim p s).seq = s.seq := by cases p <;> rfl
@[simp] theorem failPrim_claimed : (failPrim p s).claimed = s.claimed := by cases p <;> rfl
@[simp] theorem failPrim_latch : (failPrim p s).latch = s.latch := by cases p <;> rfl
@[simp] theorem failPrim_cursor : (failPrim p s).cursor = s.cursor := by cases p <;> rfl
@[simp] theorem failPrim_result : (failPrim p s).result = s.result := by cases p <;> rfl
@[simp] theorem failPrim_requests : (failPrim p s).requests = s.requests := by cases p <;> rfl
@[simp] theorem failPrim_port : (failPrim p s).port = s.port := by cases p <;> rfl
@[simp] theorem failPrim_pin (sg : Signal) : (failPrim p s).pin sg = s.pin sg := by cases p <;> rfl
@[simp] theorem failPrim_drvPins : (failPrim p s).drvPins = s.drvPins := by cases p <;> rfl
@[simp] theorem failPrim_trace : (failPrim p s).trace = s.trace ++ [eventOf s .failed p] := by
  cases p <;> rfl

end FailPrim

/-! ### What a run leaves -/

section OkRun
variable (ps : List Prim) (s : State)

@[simp] theorem okRun_mode : (okRun ps s).mode = s.mode := by
  induction ps generalizing s <;> simp [*]
@[simp] theorem okRun_pinmap : (okRun ps s).pinmap = s.pinmap := by
  induction ps generalizing s <;> simp [*]
@[simp] theorem okRun_geometry : (okRun ps s).geometry = s.geometry := by
  induction ps generalizing s <;> simp [*]
@[simp] theorem okRun_phase : (okRun ps s).phase = s.phase := by
  induction ps generalizing s <;> simp [*]
@[simp] theorem okRun_seq : (okRun ps s).seq = s.seq := by
  induction ps generalizing s <;> simp [*]
@[simp] theorem okRun_cursor : (okRun ps s).cursor = s.cursor := by
  induction ps generalizing s <;> simp [*]
@[simp] theorem okRun_result : (okRun ps s).result = s.result := by
  induction ps generalizing s <;> simp [*]
@[simp] theorem okRun_requests : (okRun ps s).requests = s.requests := by
  induction ps generalizing s <;> simp [*]
@[simp] theorem okRun_port : (okRun ps s).port = s.port := by
  induction ps generalizing s <;> simp [*]
@[simp] theorem okRun_pin (sg : Signal) : (okRun ps s).pin sg = s.pin sg := by
  induction ps generalizing s <;> simp [*]
@[simp] theorem okRun_drvPins : (okRun ps s).drvPins = s.drvPins := by
  induction ps generalizing s <;> simp [*]
@[simp] theorem okRun_portAnswer (j : Nat) : (okRun ps s).portAnswer j = s.portAnswer j := by
  induction ps generalizing s <;> simp [*]

/-- The event of a primitive depends on the state only through its pins. -/
theorem eventOf_congr {s t : State} (h : ∀ sg, t.pin sg = s.pin sg) (a : PortAnswer) (p : Prim) :
    eventOf t a p = eventOf s a p := by
  cases p <;> simp [eventOf, h]

@[simp] theorem eventOf_okPrim (a : PortAnswer) (p q : Prim) :
    eventOf (okPrim q s) a p = eventOf s a p := eventOf_congr (fun _ => by simp) a p

@[simp] theorem eventOf_okRun (a : PortAnswer) (p : Prim) :
    eventOf (okRun ps s) a p = eventOf s a p := eventOf_congr (fun _ => by simp) a p

/-- A run that does not fail appends one event per primitive (R30). -/
theorem okRun_trace : (okRun ps s).trace = s.trace ++ ps.map (eventOf s .ok) := by
  induction ps generalizing s with
  | nil => simp
  | cons p ps ih =>
    have h : eventOf (okPrim p s) .ok = eventOf s .ok := funext fun q => eventOf_okPrim s .ok q p
    simp [ih, h]

/-- A run that does not fail claims the pins it configures, in order (R28). -/
theorem okRun_claimed : (okRun ps s).claimed = s.claimed ++ (ps.filterMap claimOf).map s.pin := by
  induction ps generalizing s with
  | nil => simp
  | cons p ps ih =>
    have h : (okPrim p s).pin = s.pin := funext fun sg => okPrim_pin p s sg
    cases hc : claimOf p <;> simp [ih, okPrim_claimed, h, hc]

end OkRun

/-! ### A run ends all `ok` or at its first failure -/

theorem allOk_nil (s : State) : AllOk [] s := by intro n p h; simp at h

/-- Planned answers whose failures all come later are `ok`. -/
theorem allOk_of_planned (ps : List Prim) (s : State)
    (hf : ∀ j ∈ s.port.fails, s.trace.length + ps.length < j)
    (hk : s.trace.length + ps.length ≤ s.port.known) : AllOk ps s := by
  intro n p hp _
  have hn : n < ps.length := (List.getElem?_eq_some_iff.mp hp).1
  have h1 : s.trace.length + n + 1 ≤ s.port.known := by omega
  have h2 : s.trace.length + n + 1 ∉ s.port.fails := fun h => by have := hf _ h; omega
  simp [State.portAnswer, h1, h2]

theorem allOk_cons {p : Prim} {ps : List Prim} {s : State} :
    AllOk (p :: ps) s ↔ (asks p = true → s.portAnswer s.nextIndex = .ok) ∧ AllOk ps (okPrim p s) := by
  constructor
  · intro h
    refine ⟨fun ha => h 0 p rfl ha, fun n q hq ha => ?_⟩
    have := h (n + 1) q hq ha
    simpa [Nat.add_assoc, Nat.add_comm 1 n] using this
  · rintro ⟨h0, h⟩ n q hq ha
    cases n with
    | zero => cases hq; exact h0 ha
    | succ n =>
      have := h n q hq ha
      simpa [Nat.add_assoc, Nat.add_comm 1 n] using this

theorem firstFails_cons_succ {p q : Prim} {ps : List Prim} {n : Nat} {s : State} :
    FirstFails (p :: ps) (n + 1) q s ↔
      (asks p = true → s.portAnswer s.nextIndex = .ok) ∧ FirstFails ps n q (okPrim p s) := by
  simp only [FirstFails, List.take_succ_cons, allOk_cons, List.getElem?_cons_succ]
  simp [and_assoc, Nat.add_assoc, Nat.add_comm 1 n]

theorem runPrims_cons (p : Prim) (ps : List Prim) (s : State) :
    runPrims (p :: ps) s =
      match runPrim p s with
      | .ok t => runPrims ps t
      | .fail k j t => .fail k j t := rfl

/-- When the Port answers `ok` throughout, a run ends `ok`. -/
theorem runPrims_ok {ps : List Prim} {s : State} (h : AllOk ps s) :
    runPrims ps s = .ok (okRun ps s) := by
  induction ps generalizing s with
  | nil => rfl
  | cons p ps ih =>
    obtain ⟨h0, h1⟩ := allOk_cons.mp h
    obtain ⟨hr, -⟩ | ⟨-, ha, hf⟩ := runPrim_cases p s
    · rw [runPrims_cons, hr]; exact ih h1
    · rw [h0 ha] at hf; cases hf

/-- At the first failing answer a run ends with that failure, its TRACE index and the state it leaves (R206). -/
theorem runPrims_fail {ps : List Prim} {n : Nat} {p : Prim} {s : State} (h : FirstFails ps n p s) :
    runPrims ps s =
      .fail (failureOf p) (s.trace.length + n + 1) (failPrim p (okRun (ps.take n) s)) := by
  induction ps generalizing s n with
  | nil => simp [FirstFails] at h
  | cons q ps ih =>
    cases n with
    | zero =>
      obtain ⟨-, hq, ha, hf⟩ := h
      obtain rfl : q = p := by simpa using hq
      obtain ⟨-, h0⟩ | ⟨hr, -, -⟩ := runPrim_cases q s
      · rw [show s.portAnswer s.nextIndex = .failed from hf] at h0
        exact absurd (h0 ha) (by simp)
      · rw [runPrims_cons, hr]; rfl
    | succ n =>
      obtain ⟨h0, h1⟩ := firstFails_cons_succ.mp h
      obtain ⟨hr, -⟩ | ⟨-, ha, hf⟩ := runPrim_cases q s
      · rw [runPrims_cons, hr]
        simp only [ih h1]
        simp [Nat.add_assoc, Nat.add_comm 1 n]
      · rw [h0 ha] at hf; cases hf

/-- Every run is one of the two. -/
theorem allOk_or_firstFails (ps : List Prim) (s : State) :
    AllOk ps s ∨ ∃ n p, FirstFails ps n p s := by
  induction ps generalizing s with
  | nil => exact .inl (allOk_nil s)
  | cons q ps ih =>
    obtain ⟨-, h0⟩ | ⟨-, ha, hf⟩ := runPrim_cases q s
    · obtain h | ⟨n, p, h⟩ := ih (okPrim q s)
      · exact .inl (allOk_cons.mpr ⟨h0, h⟩)
      · exact .inr ⟨n + 1, p, firstFails_cons_succ.mpr ⟨h0, h⟩⟩
    · exact .inr ⟨0, q, by simpa using allOk_nil s, rfl, ha, hf⟩

/-- Everything a run can do. -/
theorem runPrims_cases (ps : List Prim) (s : State) :
    (AllOk ps s ∧ runPrims ps s = .ok (okRun ps s)) ∨
    (∃ n p, FirstFails ps n p s ∧
      runPrims ps s =
        .fail (failureOf p) (s.trace.length + n + 1) (failPrim p (okRun (ps.take n) s))) := by
  obtain h | ⟨n, p, h⟩ := allOk_or_firstFails ps s
  · exact .inl ⟨h, runPrims_ok h⟩
  · exact .inr ⟨n, p, h, runPrims_fail h⟩

theorem runPrims_append (ps qs : List Prim) (s : State) :
    runPrims (ps ++ qs) s =
      match runPrims ps s with
      | .ok t => runPrims qs t
      | .fail k j t => .fail k j t := by
  induction ps generalizing s with
  | nil => rfl
  | cons p ps ih =>
    simp only [List.cons_append, runPrims_cons]
    cases runPrim p s with
    | ok t => exact ih t
    | fail k j t => rfl

/-! ### LVL and PINMAP -/

@[simp] theorem driveLevel_low : driveLevel .low = .low := rfl
@[simp] theorem driveLevel_high : driveLevel .high = .high := rfl
@[simp] theorem driveLevel_driveOf (b : Bool) : driveLevel (driveOf b) = bitLevel b := by
  cases b <;> rfl

@[simp] theorem levelAt_setLevelAt_same (lv : Levels) (sg : Signal) (l : Level) :
    levelAt (setLevelAt lv sg l) sg = l := by cases sg <;> rfl

theorem levelAt_setLevelAt_other (lv : Levels) {sg sg' : Signal} (l : Level) (h : sg' ≠ sg) :
    levelAt (setLevelAt lv sg l) sg' = levelAt lv sg' := by
  cases sg <;> cases sg' <;> first | rfl | exact absurd rfl h

theorem levels_ext {a b : Levels} (h : ∀ sg, levelAt a sg = levelAt b sg) : a = b := by
  cases a; cases b
  have h0 := h .rs; have h1 := h .e; have h2 := h .d0; have h3 := h .d1; have h4 := h .d2
  have h5 := h .d3; have h6 := h .d4; have h7 := h .d5; have h8 := h .d6; have h9 := h .d7
  simp only [levelAt] at h0 h1 h2 h3 h4 h5 h6 h7 h8 h9
  subst h0 h1 h2 h3 h4 h5 h6 h7 h8 h9
  rfl

@[simp] theorem levelAt_allUnknown (sg : Signal) : levelAt Levels.allUnknown sg = .unknown := by
  cases sg <;> rfl

/-- Forgetting a pin puts X at the listed signals on it and nowhere else. -/
theorem levelAt_forgetPin (s : State) (p : PinId) (sgs : List Signal) (lv : Levels) (sg : Signal) :
    levelAt (forgetPin s p sgs lv) sg =
      if sg ∈ sgs ∧ s.pin sg = p then .unknown else levelAt lv sg := by
  induction sgs generalizing lv with
  | nil => simp [forgetPin]
  | cons a rest ih =>
    rw [forgetPin, ih]
    by_cases hr : sg ∈ rest ∧ s.pin sg = p
    · simp [hr]
    · by_cases ha : sg = a
      · subst ha
        by_cases hp : s.pin sg = p
        · simp [hp]
        · simp [hp]
      · by_cases hp : s.pin a = p
        · simp [hr, hp, ha, levelAt_setLevelAt_other lv .unknown ha]
        · simp [hr, hp, ha]

/-- A release leaves all but TRACE and LVL. -/
theorem portRel_levels (p : PinId) (s : State) (sg : Signal) :
    levelAt (portRel p s).levels sg =
      if sg ∈ drv s.mode ∧ s.pin sg = p then .unknown else levelAt s.levels sg :=
  levelAt_forgetPin s p (drv s.mode) s.levels sg

/-- Everything releasing a list of pins does: one `Rel` each, and X at the driven signals of those pins. -/
theorem releasePins_spec (ps : List PinId) (s : State) :
    ∃ lv, releasePins ps s = { s with levels := lv, trace := s.trace ++ ps.map Event.rel } ∧
      ∀ sg, levelAt lv sg =
        if sg ∈ drv s.mode ∧ s.pin sg ∈ ps then .unknown else levelAt s.levels sg := by
  induction ps generalizing s with
  | nil => exact ⟨s.levels, by simp [releasePins], by simp⟩
  | cons p ps ih =>
    obtain ⟨lv, h, hl⟩ := ih (portRel p s)
    refine ⟨lv, ?_, fun sg => ?_⟩
    · rw [releasePins, h]; simp [portRel, State.emit, State.setLevels]
    · rw [hl sg, portRel_levels]
      have hm : (portRel p s).mode = s.mode := rfl
      have hp : (portRel p s).pin sg = s.pin sg := rfl
      rw [hm, hp]
      by_cases h1 : sg ∈ drv s.mode <;> by_cases h2 : s.pin sg ∈ ps <;>
        by_cases h3 : s.pin sg = p <;> simp [h1, h2, h3]

/-- Everything `releaseAll` does (R142, R144). -/
theorem releaseAll_spec (s : State) :
    ∃ lv, releaseAll s =
        { s with levels := lv, claimed := [], trace := s.trace ++ s.claimed.map Event.rel } ∧
      ∀ sg, levelAt lv sg =
        if sg ∈ drv s.mode ∧ s.pin sg ∈ s.claimed then .unknown else levelAt s.levels sg := by
  obtain ⟨lv, h, hl⟩ := releasePins_spec s.claimed s
  exact ⟨lv, by rw [releaseAll, h]; rfl, hl⟩

end Sys2Proof.Machine
end

