-- ==== Sys2Proof/Laws/PerInstr.lean ====
section
/-! SUPPORT. The family TableRow: every instruction's word lies in its row of spec/opcode_table.json. -/

namespace Sys2Proof.Laws.TableRow

/-- An instruction's row of the opcode table: the width of its format in bits, its match and its mask. -/
def row (i : Instr) : Nat × Nat × Nat :=
  match i with
  | .init => (10, 0x000, 0x3FF)
  | .teardown => (10, 0x001, 0x3FF)
  | .sendCmd _ => (10, 0x200, 0x300)
  | .sendData _ => (10, 0x300, 0x300)
  | .clearDisplay => (8, 0x01, 0xFF)
  | .returnHome _ => (8, 0x02, 0xFE)
  | .entryModeSet _ _ => (8, 0x04, 0xFC)
  | .displayControl _ _ _ => (8, 0x08, 0xF8)
  | .cursorDisplayShift _ _ _ => (8, 0x10, 0xF0)
  | .functionSet _ _ _ _ => (8, 0x20, 0xE0)
  | .setCgramAddr _ => (8, 0x40, 0xC0)
  | .setDdramAddr _ => (8, 0x80, 0x80)

/-- Does a word have a width, and a match under a mask? -/
def fits (w : ReqWord) (r : Nat × Nat × Nat) : Bool :=
  match w with
  | .req10 bits => r.1 == 10 && (bits.toNat &&& r.2.2) == r.2.1
  | .cmd8 byte => r.1 == 8 && (byte.toNat &&& r.2.2) == r.2.1

/-- R71, R75: the encoding of `i` has the format, match and mask of its row. -/
def Statement (i : Instr) : Prop := fits (encode i) (row i) = true

theorem init : Statement .init := by unfold Statement; decide
theorem teardown : Statement .teardown := by unfold Statement; decide

theorem sendCmd (value : Byte) : Statement (.sendCmd value) := by
  revert value; unfold Statement; decide +kernel

theorem sendData (value : Byte) : Statement (.sendData value) := by
  revert value; unfold Statement; decide +kernel

theorem clearDisplay : Statement .clearDisplay := by unfold Statement; decide

theorem returnHome (dontCare : BitVec 1) : Statement (.returnHome dontCare) := by
  revert dontCare; unfold Statement; decide +kernel

theorem entryModeSet (increment shift : Bool) : Statement (.entryModeSet increment shift) := by
  revert increment shift; unfold Statement; decide +kernel

theorem displayControl (display cursor blink : Bool) :
    Statement (.displayControl display cursor blink) := by
  revert display cursor blink; unfold Statement; decide +kernel

theorem cursorDisplayShift (displayShift right : Bool) (dontCare : BitVec 2) :
    Statement (.cursorDisplayShift displayShift right dontCare) := by
  revert displayShift right dontCare; unfold Statement; decide +kernel

theorem functionSet (dataLength lines font : Bool) (dontCare : BitVec 2) :
    Statement (.functionSet dataLength lines font dontCare) := by
  revert dataLength lines font dontCare; unfold Statement; decide +kernel

theorem setCgramAddr (address : BitVec 6) : Statement (.setCgramAddr address) := by
  revert address; unfold Statement; decide +kernel

theorem setDdramAddr (address : BitVec 7) : Statement (.setDdramAddr address) := by
  revert address; unfold Statement; decide +kernel

end Sys2Proof.Laws.TableRow
end

