-- ==== Sys2Proof/Laws/Requests.lean ====
section
/-! SUPPORT. What a SEND request can do, and how the sequencer's loop unrolls. -/

namespace Sys2Proof.Machine

open Sys2Proof.Safety

/-- Everything a SEND can do: refused, Ok with every primitive issued, or IOError at the first failure. -/
theorem sendRequest_cases (v : Byte) (asData : Bool) (s : State) :
    (s.phase ≠ .ready ∧ sendRequest v asData s = s.setResult (.refused .notReady)) ∨
    (s.phase = .ready ∧ AllOk (sendBytePrims s.mode v asData) s ∧
      sendRequest v asData s = (okRun (sendBytePrims s.mode v asData) s).setResult .ok) ∨
    (s.phase = .ready ∧ ∃ n p, FirstFails (sendBytePrims s.mode v asData) n p s ∧
      sendRequest v asData s =
        (failPrim p (okRun ((sendBytePrims s.mode v asData).take n) s)).setResult
          (.ioError (s.trace.length + n + 1))) := by
  by_cases hp : s.phase = .ready
  · obtain ⟨h, hr⟩ | ⟨n, p, h, hr⟩ := runPrims_cases (sendBytePrims s.mode v asData) s
    · exact .inr (.inl ⟨hp, h, by simp [sendRequest, hp, hr]⟩)
    · exact .inr (.inr ⟨hp, n, p, h, by simp [sendRequest, hp, hr, sendFailed]⟩)
  · exact .inl ⟨hp, by simp [sendRequest, hp, refuse]⟩

/-- Every request that carries a byte is that SEND (R104, R105, R172 to R179). -/
theorem exec_of_carriedByte {i : Instr} {v : Byte} {asData : Bool} (s : State)
    (h : carriedByte i = some (v, asData)) : exec i s = .next (sendRequest v asData s) := by
  cases i <;> simp only [carriedByte, Option.some.injEq, Prod.mk.injEq, reduceCtorEq] at h <;>
    obtain ⟨rfl, rfl⟩ := h <;> rfl

/-- A value of SEQ outside the eight steps' middle stays under a run of primitives. -/
theorem runPrim_setSeq (p : Prim) (q : Seq) (s : State) :
    runPrim p (s.setSeq q) =
      match runPrim p s with
      | .ok t => .ok (t.setSeq q)
      | .fail k j t => .fail k j (t.setSeq q) := by
  cases p with
  | cfg sg =>
    simp only [runPrim, portCfg, State.setSeq_portAnswer]
    rw [show (s.setSeq q).nextIndex = s.nextIndex from rfl]
    cases s.portAnswer s.nextIndex <;> rfl
  | wr sg d =>
    simp only [runPrim, portWr, State.setSeq_portAnswer]
    rw [show (s.setSeq q).nextIndex = s.nextIndex from rfl]
    cases s.portAnswer s.nextIndex <;> rfl
  | hold => rfl

/-- SEQ is not read by any primitive. -/
theorem runPrims_setSeq (ps : List Prim) (q : Seq) (s : State) :
    runPrims ps (s.setSeq q) =
      match runPrims ps s with
      | .ok t => .ok (t.setSeq q)
      | .fail k j t => .fail k j (t.setSeq q) := by
  induction ps generalizing s with
  | nil => rfl
  | cons p ps ih =>
    simp only [runPrims_cons, runPrim_setSeq]
    cases runPrim p s with
    | ok t => exact ih t
    | fail k j t => rfl

/-- INIT's end after at most `n` more steps of the loop from SEQ = `q`. -/
def seqFrom (c : CmdV) (n : Nat) (q : Seq) (s : State) : State :=
  finishInit (seqRun c n (s.setSeq q))

theorem seqRun_ended (c : CmdV) (n : Nat) (s : State) (h : seqEnded s.seq = true) :
    seqRun c n s = s := by
  cases n <;> simp [seqRun, h]

/-- One turn of the sequencer's loop (R131), for a step other than S8_MARK. -/
theorem seqFrom_step (c : CmdV) (n : Nat) (q : Seq) (s : State) (he : seqEnded q = false)
    (hm : q ≠ .s8Mark) :
    seqFrom c (n + 1) q s =
      match runPrims (seqPrims c s.mode q) s with
      | .ok t => seqFrom c n (seqNext s.mode q) t
      | .fail k j t => initAbort k j t := by
  simp only [seqFrom, seqRun, State.setSeq_seq, he, Bool.false_eq_true, if_false, seqStep,
    State.setSeq_mode, runPrims_setSeq]
  cases runPrims (seqPrims c s.mode q) s with
  | ok t => simp [hm, State.setSeq]
  | fail k j t =>
    simp only [seqRun_ended c n ((t.setSeq q).setSeq (.abort k j)) rfl]
    simp only [finishInit, State.setSeq_seq, initAbort]
    obtain ⟨lv, h, -⟩ := releaseAll_spec t
    have hr : releaseAll ((t.setSeq q).setSeq (.abort k j)) =
        (releaseAll t).setSeq (.abort k j) := by
      have hp : ∀ (ps : List PinId) (u : State) (q' : Seq),
          releasePins ps (u.setSeq q') = (releasePins ps u).setSeq q' := by
        intro ps
        induction ps with
        | nil => intros; rfl
        | cons p ps ih =>
          intro u q'
          rw [releasePins, releasePins, ← ih]
          congr 1
          have hf : ∀ (sgs : List Signal) (lv : Levels),
              forgetPin (u.setSeq q') p sgs lv = forgetPin u p sgs lv := by
            intro sgs
            induction sgs with
            | nil => intros; rfl
            | cons a r ih' => intro lv; rw [forgetPin, forgetPin, ih']; rfl
          simp only [portRel]
          rw [show drv (u.setSeq q').mode = drv u.mode from rfl, hf]
          rfl
      change (releasePins t.claimed (t.setSeq (.abort k j))).setClaimed [] = _
      rw [hp]
      rfl
    rw [hr]
    rfl

/-- The last turn: S8_MARK issues nothing, writes CURSOR, and the sequencer is done (R140, R141). -/
theorem seqFrom_mark (c : CmdV) (n : Nat) (s : State) :
    seqFrom c (n + 1) .s8Mark s =
      (((markClear s).setPhase .ready).setSeq .idle).setResult .ok := by
  simp only [seqFrom, seqRun, State.setSeq_seq, seqEnded, Bool.false_eq_true, if_false, seqStep,
    seqPrims, runPrims, if_true, seqNext]
  rw [seqRun_ended _ _ _ rfl]
  rfl

/-- INIT of an UNINIT block with a valid PINMAP is the sequencer's loop from S1(0). -/
theorem initRequest_of_valid (c : CmdV) (s : State) (hp : s.phase = .uninit)
    (hv : validPinMap s.pinmap s.mode = true) :
    initRequest c s = seqFrom c (seqLength s.mode) (.s1 0) s := by
  simp [initRequest, hp, hv, seqFrom]

/-- Everything TEARDOWN does (R144, R145). -/
theorem teardownRequest_cases (s : State) :
    (s.phase = .ready ∧ teardownRequest s = ((releaseAll s).setPhase .released).setResult .ok) ∨
    (s.phase ≠ .ready ∧ teardownRequest s = (s.setPhase .released).setResult .ok) := by
  by_cases h : s.phase = .ready
  · exact .inl ⟨h, by simp [teardownRequest, h]⟩
  · exact .inr ⟨h, by simp [teardownRequest, h]⟩

end Sys2Proof.Machine
end

