-- ==== Sys2Proof/Tests/Slice0.lean ====
section
/-! SUPPORT. The model's own tests: expected values are those of spec/95_test_vectors.md and the rules cited; and a
witness for every statement that has hypotheses. -/

namespace Sys2Proof.Tests

open Sys2Proof.Machine Sys2Proof.Safety

/-! ### Helpers -/

/-- Ten distinct pins. -/
def pins : PinMap := Config.resetPinMap

/-- A new block whose Port answers `ok` to the first 1000 primitives but those listed. -/
def newBlock (m : Mode) (fails : List Nat) : State :=
  { State.construct m pins ⟨16, 2⟩ with port := ⟨fails, 1000⟩ }

/-- A READY block with nothing in TRACE, every driven level L, whose Port fails as listed. -/
def readyBlock (m : Mode) (fails : List Nat) : State :=
  { newBlock m fails with
    phase := .ready
    claimed := (newBlock m fails).drvPins
    cursor := some ⟨0, 0, true⟩
    levels :=
      match m with
      | .fourBit =>
        { Levels.allUnknown with rs := .low, e := .low, d4 := .low, d5 := .low, d6 := .low, d7 := .low }
      | .eightBit =>
        ⟨.low, .low, .low, .low, .low, .low, .low, .low, .low, .low⟩ }

/-- The next state, or the state before where there is none. -/
def run (i : Instr) (s : State) : State :=
  match exec i s with
  | .next t => t
  | .fault _ => s
  | .refused _ => s

/-- `Wr(sg, l)` that is `ok`, on the pin of `pins`. -/
def wrH (sg : Signal) : Event := .wr ((pinEntry pins sg).getD ⟨99⟩) .high .ok
def wrL (sg : Signal) : Event := .wr ((pinEntry pins sg).getD ⟨99⟩) .low .ok

/-- The data of a latch list: RS level and bus value, with `none` for a word with an X. -/
def latchData (ls : List Latch) : List (Bool × Level × Option Nat) :=
  ls.map (fun l =>
    match l with
    | .latch rs bus => (true, rs, busValue bus)
    | .maybeLatch rs bus => (false, rs, busValue bus))

/-! ### Well-formedness and decoding (95 sections 2.1, 2.2; the words from R71 and R75) -/

theorem test_illformed_reserved_word : (ReqWord.req10 0x002#10).wellFormed = false := by decide
theorem test_illformed_reserved_word_rs : (ReqWord.req10 0x100#10).wellFormed = false := by decide
theorem test_illformed_no_class : (ReqWord.cmd8 0x00#8).wellFormed = false := by decide
theorem test_illformed_pinmap_missing : validPinMap { pins with d7 := none } .fourBit = false := by decide
theorem test_illformed_pinmap_shared : validPinMap { pins with e := pins.rs } .fourBit = false := by decide
theorem test_pinmap_d0_ignored_in_fourBit : validPinMap { pins with d0 := pins.rs } .fourBit = true := by
  decide

theorem test_decode_control :
    decode (.req10 0b0000000000#10) = .instr .init ∧
    decode (.req10 0b0000000001#10) = .instr .teardown ∧
    decode (.req10 0x002#10) = .reservedRequest 0x002#10 ∧
    decode (.req10 0x0FF#10) = .reservedRequest 0x0FF#10 ∧
    decode (.req10 0x100#10) = .reservedRequest 0x100#10 ∧
    decode (.req10 0x101#10) = .reservedRequest 0x101#10 ∧
    decode (.req10 0x1FF#10) = .reservedRequest 0x1FF#10 := by decide

theorem test_decode_sends :
    decode (.req10 0b1000000000#10) = .instr (.sendCmd 0x00#8) ∧
    decode (.req10 0x201#10) = .instr (.sendCmd 0x01#8) ∧
    decode (.req10 0x2FF#10) = .instr (.sendCmd 0xFF#8) ∧
    decode (.req10 0b1100000000#10) = .instr (.sendData 0x00#8) ∧
    decode (.req10 0x341#10) = .instr (.sendData 0x41#8) ∧
    decode (.req10 0x3FF#10) = .instr (.sendData 0xFF#8) := by decide

theorem test_decode_classes_low :
    decode (.cmd8 0x00#8) = .noClass ∧
    decode (.cmd8 0b00000001#8) = .instr .clearDisplay ∧
    decode (.cmd8 0b00000010#8) = .instr (.returnHome 0#1) ∧
    decode (.cmd8 0b00000011#8) = .instr (.returnHome 1#1) ∧
    decode (.cmd8 0b00000100#8) = .instr (.entryModeSet false false) ∧
    decode (.cmd8 0b00000110#8) = .instr (.entryModeSet true false) ∧
    decode (.cmd8 0b00000111#8) = .instr (.entryModeSet true true) ∧
    decode (.cmd8 0b00001000#8) = .instr (.displayControl false false false) ∧
    decode (.cmd8 0b00001110#8) = .instr (.displayControl true true false) ∧
    decode (.cmd8 0b00001111#8) = .instr (.displayControl true true true) := by decide

theorem test_decode_classes_high :
    decode (.cmd8 0b00010000#8) = .instr (.cursorDisplayShift false false 0#2) ∧
    decode (.cmd8 0b00010100#8) = .instr (.cursorDisplayShift false true 0#2) ∧
    decode (.cmd8 0b00011111#8) = .instr (.cursorDisplayShift true true 3#2) ∧
    decode (.cmd8 0b00100000#8) = .instr (.functionSet false false false 0#2) ∧
    decode (.cmd8 0b00101100#8) = .instr (.functionSet false true true 0#2) ∧
    decode (.cmd8 0b00111111#8) = .instr (.functionSet true true true 3#2) ∧
    decode (.cmd8 0b01000000#8) = .instr (.setCgramAddr 0x00#6) ∧
    decode (.cmd8 0b01111111#8) = .instr (.setCgramAddr 0x3F#6) ∧
    decode (.cmd8 0b10000000#8) = .instr (.setDdramAddr 0x00#7) ∧
    decode (.cmd8 0b11111111#8) = .instr (.setDdramAddr 0x7F#7) := by decide

/-- The numbering of the opcode table: a REQ10 row is two bytes wide, a CMD8 row one. -/
theorem test_table_words :
    decodeTableWord 16 0x001 = some .teardown ∧ decodeTableWord 16 0x2A5 = some (.sendCmd 0xA5#8) ∧
    decodeTableWord 8 0x3C = some (.functionSet true true true 0#2) ∧
    decodeTableWord 16 0x155 = none ∧ decodeTableWord 8 0x00 = none := by decide

/-- V4: the position byte at the ends of its range, and outside it. -/
theorem test_position_byte :
    positionByte 0x80#8 0 0 = some 0x80#8 ∧ positionByte 0x80#8 63 0 = some 0xBF#8 ∧
    positionByte 0x80#8 0 1 = some 0xC0#8 ∧ positionByte 0x80#8 63 1 = some 0xFF#8 ∧
    positionByte 0x80#8 64 0 = none ∧ positionByte 0x80#8 0 2 = none := by decide

/-- R82's own examples and P1, P2: notation to words. -/
theorem test_lines :
    readLine ['I', 'N', 'I', 'T', ' ', ';', 'x'] = some (.req10 0x000#10) ∧
    readLine ['T', 'E', 'A', 'R', 'D', 'O', 'W', 'N'] = some (.req10 0x001#10) ∧
    readLine ['S', 'E', 'N', 'D', '.', 'D', ' ', ' ', '\'', 'H', '\''] = some (.req10 0x348#10) ∧
    readLine ['S', 'E', 'N', 'D', '.', 'C', ' ', '0', 'x', 'C', '0'] = some (.req10 0x2C0#10) ∧
    readLine ['S', 'E', 'N', 'D', '.', 'C', ' ', '0', 'b', '1', '0', '1'] = some (.req10 0x205#10) ∧
    readLine ['S', 'E', 'N', 'D', '.', 'C', ' ', '2', '5', '5'] = some (.req10 0x2FF#10) ∧
    readLine ['S', 'E', 'N', 'D', '.', 'C', ' ', '2', '5', '6'] = none := by decide

/-! ### Requests (95 section 2) -/

/-- V10: FourBit INIT. -/
theorem test_init_fourBit :
    (run .init (newBlock .fourBit [])).trace.length = 134 ∧
    (run .init (newBlock .fourBit [])).phase = .ready ∧
    (run .init (newBlock .fourBit [])).seq = .idle ∧
    latchData (run .init (newBlock .fourBit [])).latch =
      (false, .low, none) ::
        [0x3, 0x3, 0x3, 0x2, 0x2, 0xC, 0x0, 0xE, 0x0, 0x6, 0x1, 0x4, 0x0, 0x1, 0x8, 0x0].map
          (fun n => (true, .low, some n)) := by decide +kernel

/-- V11: EightBit INIT. -/
theorem test_init_eightBit :
    (run .init (newBlock .eightBit [])).trace.length = 118 ∧
    latchData (run .init (newBlock .eightBit [])).latch =
      (false, .low, none) ::
        [0x30, 0x30, 0x30, 0x30, 0x3C, 0x0E, 0x06, 0x14, 0x01, 0x80].map
          (fun n => (true, .low, some n)) ∧
    (run .init (newBlock .eightBit [])).levels =
      ⟨.low, .low, .low, .low, .low, .low, .low, .low, .low, .high⟩ := by decide +kernel

/-- V14: the claim of D4 fails. -/
theorem test_init_third_claim_fails :
    (run .init (newBlock .fourBit [5])).trace =
      [.cfg ⟨0⟩ .ok, wrL .rs, .cfg ⟨1⟩ .ok, wrL .e, .cfg ⟨6⟩ .failed, .rel ⟨0⟩, .rel ⟨1⟩] ∧
    (run .init (newBlock .fourBit [5])).result = some (.initError .configurationError 5) ∧
    (run .init (newBlock .fourBit [5])).phase = .released ∧
    (run .init (newBlock .fourBit [5])).cursor = none := by decide +kernel

/-- V15: the falling edge of step 4's high nibble fails at index 40. -/
theorem test_init_fails_at_forty :
    (run .init (newBlock .fourBit [40])).trace.length = 46 ∧
    (run .init (newBlock .fourBit [40])).latch.length = 5 ∧
    (run .init (newBlock .fourBit [40])).levels = Levels.allUnknown ∧
    (run .init (newBlock .fourBit [40])).result = some (.initError .ioError 40) := by decide +kernel

/-- V1: the events of SEND.C 0xA5 after a FourBit INIT. -/
theorem test_sendCmd_fourBit :
    (run (.sendCmd 0xA5#8) (run .init (newBlock .fourBit []))).trace.drop 134 =
      [wrL .rs, wrL .d4, wrH .d5, wrL .d6, wrH .d7, wrH .e, .hold, wrL .e, .hold,
       wrH .d4, wrL .d5, wrH .d6, wrL .d7, wrH .e, .hold, wrL .e, .hold] := by decide +kernel

/-- V2: the events of SEND.C 0xA5 in EightBit. -/
theorem test_sendCmd_eightBit :
    (run (.sendCmd 0xA5#8) (readyBlock .eightBit [])).trace =
      [wrL .rs, wrH .d0, wrL .d1, wrH .d2, wrL .d3, wrL .d4, wrH .d5, wrL .d6, wrH .d7,
       wrH .e, .hold, wrL .e, .hold] := by decide +kernel

/-- V8: the latches and levels of SEND.D 0x41 in FourBit. -/
theorem test_sendData_fourBit :
    latchData (run (.sendData 0x41#8) (readyBlock .fourBit [])).latch =
      [(true, .high, some 0x4), (true, .high, some 0x1)] ∧
    (run (.sendData 0x41#8) (readyBlock .fourBit [])).levels =
      { Levels.allUnknown with rs := .high, e := .low, d4 := .high, d5 := .low, d6 := .low, d7 := .low } := by
  decide +kernel

/-- Section 2.8, FourBit n = 10: the low nibble's first write fails, D4 is X, one latch event. -/
theorem test_sendData_fails_between_nibbles :
    latchData (run (.sendData 0x41#8) (readyBlock .fourBit [10])).latch = [(true, .high, some 0x4)] ∧
    (run (.sendData 0x41#8) (readyBlock .fourBit [10])).levels =
      { Levels.allUnknown with
        rs := .high, e := .low, d4 := .unknown, d5 := .low, d6 := .high, d7 := .low } ∧
    (run (.sendData 0x41#8) (readyBlock .fourBit [10])).result = some (.ioError 10) := by decide +kernel

/-- V16: after a failed raise of E the next SEND latches for certain. -/
theorem test_send_after_failed_edge :
    (run (.sendData 0x41#8) (readyBlock .eightBit [10])).levels.e = .unknown ∧
    latchData (run (.sendData 0x42#8) (run (.sendData 0x41#8) (readyBlock .eightBit [10]))).latch =
      [(true, .high, some 0x42)] ∧
    (run (.sendData 0x42#8) (run (.sendData 0x41#8) (readyBlock .eightBit [10]))).result = some .ok := by
  decide +kernel

/-- V17: TEARDOWN of a READY FourBit block. -/
theorem test_teardown :
    (run .teardown (readyBlock .fourBit [])).trace =
      [.rel ⟨0⟩, .rel ⟨1⟩, .rel ⟨6⟩, .rel ⟨7⟩, .rel ⟨8⟩, .rel ⟨9⟩] ∧
    (run .teardown (readyBlock .fourBit [])).levels = Levels.allUnknown ∧
    (run .teardown (readyBlock .fourBit [])).claimed = [] ∧
    (run .teardown (readyBlock .fourBit [])).cursor = some ⟨0, 0, true⟩ := by decide +kernel

/-- Section 2.9: TEARDOWN of a new block issues nothing. -/
theorem test_teardown_uninit :
    (run .teardown (newBlock .fourBit [])).trace = [] ∧
    (run .teardown (newBlock .fourBit [])).phase = .released ∧
    (run .teardown (newBlock .fourBit [])).result = some .ok := by decide +kernel

/-- R172's example: FourBit, latches (L, 0x0) then (L, 0x1). -/
theorem test_clearDisplay :
    latchData (run .clearDisplay (readyBlock .fourBit [])).latch =
      [(true, .low, some 0x0), (true, .low, some 0x1)] := by decide +kernel

/-- R173: 0x03 is carried as given. -/
theorem test_returnHome :
    latchData (run (.returnHome 1#1) (readyBlock .eightBit [])).latch = [(true, .low, some 0x03)] := by
  decide +kernel

/-- R174's example: FourBit, 0x06 latches (L, 0x0) then (L, 0x6). -/
theorem test_entryModeSet :
    latchData (run (.entryModeSet true false) (readyBlock .fourBit [])).latch =
      [(true, .low, some 0x0), (true, .low, some 0x6)] := by decide +kernel

/-- R175's example: EightBit, 0x0E latches (L, 0x0E). -/
theorem test_displayControl :
    latchData (run (.displayControl true true false) (readyBlock .eightBit [])).latch =
      [(true, .low, some 0x0E)] := by decide +kernel

/-- R176's example: FourBit, 0x14 latches (L, 0x1) then (L, 0x4). -/
theorem test_cursorDisplayShift :
    latchData (run (.cursorDisplayShift false true 0#2) (readyBlock .fourBit [])).latch =
      [(true, .low, some 0x1), (true, .low, some 0x4)] := by decide +kernel

/-- R177's example: FourBit, 0x2C latches (L, 0x2) then (L, 0xC). -/
theorem test_functionSet :
    latchData (run (.functionSet false true true 0#2) (readyBlock .fourBit [])).latch =
      [(true, .low, some 0x2), (true, .low, some 0xC)] := by decide +kernel

/-- R179's example: FourBit, 0x48 latches (L, 0x4) then (L, 0x8). -/
theorem test_setCgramAddr :
    latchData (run (.setCgramAddr 0x08#6) (readyBlock .fourBit [])).latch =
      [(true, .low, some 0x4), (true, .low, some 0x8)] := by decide +kernel

/-- R178's example: EightBit, 0xC5 latches (L, 0xC5). -/
theorem test_setDdramAddr :
    latchData (run (.setDdramAddr 0x45#7) (readyBlock .eightBit [])).latch = [(true, .low, some 0xC5)] := by
  decide +kernel

/-- Section 2.9: refusals. -/
theorem test_refusals :
    (run (.sendData 0x41#8) (newBlock .fourBit [])).result = some (.refused .notReady) ∧
    (run .init (readyBlock .fourBit [])).result = some (.refused .notReady) ∧
    (run .init { newBlock .fourBit [] with pinmap := { pins with e := pins.rs } }).result =
      some (.refused .invalidConfig) := by decide +kernel

/-- V20, P5: a reserved word is refused in RESULT, by a step that goes on. -/
theorem test_reserved_step :
    step ((newBlock .eightBit []).withFetchWord 16 0x155) =
      .next { newBlock .eightBit [] with result := some (.refused .reservedRequest) } := by rfl

/-- From reset, with INIT issued, the very next step runs it, whatever the Port answers. -/
theorem test_reset_runs_init :
    step (State.reset.withFetchWord 16 0x000) = exec .init State.reset := by rfl

theorem test_reset_runs_class :
    step (State.reset.withFetchWord 8 0x01) =
      .next { State.reset with result := some (.refused .notReady) } := by rfl

/-- With no request issued a step waits (log entry 7). -/
theorem test_reset_waits : step State.reset = .next State.reset := by rfl

/-! ### Witnesses: for each statement with hypotheses, a state and operands that meet them -/

/-- A new block's Port answers `ok` to a whole program. -/
theorem newBlock_allOk (m : Mode) (ps : List Prim) (h : ps.length ≤ 1000) : AllOk ps (newBlock m []) :=
  allOk_of_planned ps _ (by intro j hj; cases hj) (by simpa [newBlock, State.construct] using h)

theorem readyBlock_allOk (m : Mode) (ps : List Prim) (h : ps.length ≤ 1000) : AllOk ps (readyBlock m []) :=
  allOk_of_planned ps _ (by intro j hj; cases hj)
    (by simpa [readyBlock, newBlock, State.construct] using h)

theorem witness_DecodeOfEncode : (Instr.setDdramAddr 0x7F#7).wellFormed = true := by decide

theorem witness_EncodeOfDecode :
    decode (.cmd8 0x3F#8) = .instr (.functionSet true true true 3#2) := by decide

theorem witness_RequestWordsDecodeTotally :
    ((0x200#10).getLsbD 9 = true ∧ (0x200#10).getLsbD 8 = false) ∧
    ((0x3FF#10).getLsbD 9 = true ∧ (0x3FF#10).getLsbD 8 = true) ∧
    ((0x1FF#10).getLsbD 9 = false ∧ 0x1FF#10 ≠ 0x000#10 ∧ 0x1FF#10 ≠ 0x001#10) ∧
    (pushRequest (.req10 0x002#10) (newBlock .fourBit [])).requests = .req10 0x002#10 :: [] ∧
    decode (.req10 0x002#10) = .reservedRequest 0x002#10 := by decide

theorem witness_ClassBytesMatchTheirWords : encode (.returnHome 1#1) = .cmd8 0x03#8 := by decide

theorem witness_PositionByteOnItsRange : 0x3F ≤ 0x3F := by decide

theorem witness_PseudoRequestsExpand :
    expand (.pos 0x3F 0) = some [.req10 0x2BF#10] ∧ expand (.pos 0x3F 1) = some [.req10 0x2FF#10] := by decide

theorem witness_BusWordsRead :
    Level.unknown ∈ busLevels (.bus4 .low .unknown .low .high) := by decide

theorem witness_StepRunsTheDecodedRequest :
    (pushRequest (.req10 0x348#10) (newBlock .fourBit [])).requests = .req10 0x348#10 :: [] ∧
    decode (.req10 0x348#10) = .instr (.sendData 0x48#8) ∧ (Instr.sendData 0x48#8).wellFormed = true := by
  decide

theorem witness_IssuedTableWordRuns : decodeTableWord 16 0x3FF = some (.sendData 0xFF#8) := by decide

theorem witness_StepWithoutAClassOrARequest :
    (pushRequest (.cmd8 0x00#8) (newBlock .fourBit [])).requests = .cmd8 0x00#8 :: [] ∧
    (newBlock .fourBit []).requests = [] := by decide

/-- The Port primitives' statements (LevelsFollowTheWrites, LatchesAtTheFallingEdge, ClaimsFollowTheConfigures): a state
whose next answer is `ok`, one whose next answer is a failure, a driven signal. -/
theorem witness_PortPrimitives :
    (newBlock .fourBit []).portAnswer (newBlock .fourBit []).nextIndex = .ok ∧
    (newBlock .fourBit [1]).portAnswer (newBlock .fourBit [1]).nextIndex = .failed ∧
    Signal.d7 ∈ drv (newBlock .fourBit []).mode ∧ Prim.hold ≠ .wr .e .low := by decide

theorem witness_LatchesAtTheFallingEdge_fails :
    runPrim (.wr .e .low) (newBlock .fourBit [1]) =
      .fail .ioError 1 (failPrim (.wr .e .low) (newBlock .fourBit [1])) := by rfl

theorem witness_LatchesAtTheFallingEdge_other :
    runPrim .hold (newBlock .fourBit []) = .ok (okPrim .hold (newBlock .fourBit [])) := by rfl

theorem witness_ClaimsFollowTheConfigures_write :
    portWr .d4 .high (newBlock .fourBit []) = .ok (okPrim (.wr .d4 .high) (newBlock .fourBit [])) := by rfl

theorem witness_StrobeRaisesAndLowersE : AllOk strobePrims (newBlock .fourBit []) :=
  newBlock_allOk _ _ (by decide)

/-- A strobe's two writes can each be the one that fails; S2 and IDLE are no S1 step. -/
theorem witness_StrobeRaisesAndLowersE_fails :
    FirstFails strobePrims 0 (.wr .e .high) (newBlock .fourBit [1]) ∧
    FirstFails strobePrims 2 (.wr .e .low) (newBlock .fourBit [3]) ∧
    (∀ i, Seq.s2 ≠ .s1 i) ∧ (∀ i, Seq.idle ≠ .s1 i) :=
  ⟨⟨allOk_of_planned _ _ (by decide) (by decide), rfl, rfl, by decide⟩,
    ⟨allOk_of_planned _ _ (by decide) (by decide), rfl, rfl, by decide⟩, nofun, nofun⟩

theorem witness_SendRequestsTransmitTheirByte :
    (readyBlock .fourBit []).phase = .ready ∧
    AllOk (sendBytePrims .fourBit 0xA5#8 false) (readyBlock .fourBit []) ∧
    AllOk (sendBytePrims .fourBit 0xA5#8 true) (readyBlock .fourBit []) :=
  ⟨rfl, readyBlock_allOk _ _ (by decide), readyBlock_allOk _ _ (by decide)⟩

theorem witness_CommandClassesTransmitTheirByte :
    (readyBlock .eightBit []).phase = .ready ∧
    AllOk (sendBytePrims .eightBit 0x01#8 false) (readyBlock .eightBit []) ∧
    AllOk (sendBytePrims .eightBit (0b0000001#7 ++ 1#1) false) (readyBlock .eightBit []) ∧
    AllOk (sendBytePrims .eightBit (0b1#1 ++ 0x7F#7) false) (readyBlock .eightBit []) :=
  ⟨rfl, readyBlock_allOk _ _ (by decide), readyBlock_allOk _ _ (by decide),
    readyBlock_allOk _ _ (by decide)⟩

theorem witness_CommandClassesTransmitTheirByte_flags :
    (0x07#8 = 0b000001#6 ++ BitVec.ofBool true ++ BitVec.ofBool true ∧
      AllOk (sendBytePrims .eightBit 0x07#8 false) (readyBlock .eightBit [])) ∧
    (0x0F#8 = 0b00001#5 ++ BitVec.ofBool true ++ BitVec.ofBool true ++ BitVec.ofBool true ∧
      AllOk (sendBytePrims .eightBit 0x0F#8 false) (readyBlock .eightBit [])) ∧
    (0x1F#8 = 0b0001#4 ++ BitVec.ofBool true ++ BitVec.ofBool true ++ 3#2 ∧
      AllOk (sendBytePrims .eightBit 0x1F#8 false) (readyBlock .eightBit [])) ∧
    (0x3F#8 = 0b001#3 ++ BitVec.ofBool true ++ BitVec.ofBool true ++ BitVec.ofBool true ++ 3#2 ∧
      AllOk (sendBytePrims .eightBit 0x3F#8 false) (readyBlock .eightBit [])) ∧
    AllOk (sendBytePrims .eightBit (0b01#2 ++ 0x3F#6) false) (readyBlock .eightBit []) :=
  ⟨⟨by decide, readyBlock_allOk _ _ (by decide)⟩, ⟨by decide, readyBlock_allOk _ _ (by decide)⟩,
    ⟨by decide, readyBlock_allOk _ _ (by decide)⟩, ⟨by decide, readyBlock_allOk _ _ (by decide)⟩,
    readyBlock_allOk _ _ (by decide)⟩

/-- EightBitLinesCarryTheByte, ByteTransferCounts, SendEndsInOkOrIoError, HoldTimeLowerBounds, SendFrame,
SendLatchesAreCertain. -/
theorem witness_CarriedByte :
    carriedByte .clearDisplay = some (0x01#8, false) ∧ (readyBlock .eightBit []).phase = .ready ∧
    (readyBlock .eightBit []).mode = .eightBit ∧
    AllOk (sendBytePrims (readyBlock .eightBit []).mode 0x01#8 false) (readyBlock .eightBit []) ∧
    ∃ t, exec .clearDisplay (readyBlock .eightBit []) = .next t :=
  ⟨rfl, rfl, rfl, readyBlock_allOk _ _ (by decide), _, rfl⟩

/-- FailedSendIsPrecise: the low nibble's first write fails (place 9). -/
theorem witness_FailedSendIsPrecise :
    carriedByte (.sendData 0x41#8) = some (0x41#8, true) ∧ (readyBlock .fourBit [10]).phase = .ready ∧
    FirstFails (sendBytePrims (readyBlock .fourBit [10]).mode 0x41#8 true) 9 (.wr .d4 .high)
      (readyBlock .fourBit [10]) :=
  ⟨rfl, rfl,
    allOk_of_planned _ _ (by decide) (by decide), by decide, by decide, by decide⟩

theorem witness_RefusalsChangeOnlyResult :
    (readyBlock .fourBit []).phase ≠ .uninit ∧
    (newBlock .fourBit []).phase = .uninit ∧ validPinMap { pins with e := pins.rs } .fourBit = false ∧
    carriedByte (.sendCmd 0x01#8) = some (0x01#8, false) ∧ (newBlock .fourBit []).phase ≠ .ready ∧
    2 ≤ (0x002#10).toNat ∧ (0x002#10).toNat ≤ 0x1FF ∧ 2 ≤ (0x1FF#10).toNat ∧ (0x1FF#10).toNat ≤ 0x1FF ∧
    (pushRequest (.req10 0x1FF#10) (newBlock .fourBit [])).requests = .req10 0x1FF#10 :: [] := by decide

theorem witness_SequencerAdvancesInOrder_ok (q : Seq) (hq : (seqPrims cmdvTable .fourBit q).length ≤ 1000) :
    AllOk (seqPrims cmdvTable .fourBit q) ((newBlock .fourBit []).setSeq q) :=
  allOk_of_planned _ _ (by intro j hj; cases hj) (by simpa [newBlock, State.construct] using hq)

/-- The premise of the one above at every step, and the places where S1's two clauses meet. -/
theorem witness_SequencerAdvancesInOrder_bounds :
    (4 + 1 < (drv .fourBit).length ∧ 5 + 1 = (drv .fourBit).length) ∧
    ([.s1 4, .s1 5, .s2, .s3, .s4, .s5, .s6, .s7, .s8Clear, .s8Pos, .s8Mark].all
      (fun q => decide ((seqPrims cmdvTable .fourBit q).length ≤ 1000))) = true := by decide

theorem witness_SequencerAdvancesInOrder_fails :
    FirstFails (seqPrims cmdvTable .fourBit .s3) 0 (.wr .d4 .low) ((newBlock .fourBit [1]).setSeq .s3) :=
  ⟨allOk_nil _, by decide, by decide, by decide⟩

/-- SequencerRunsTheStraightProgram, InitBringsTheBlockReady, InitLatchList, InitEventCounts, InitEndsReadyOrReleased. -/
theorem witness_Init (m : Mode) :
    (newBlock m []).phase = .uninit ∧ validPinMap (newBlock m []).pinmap (newBlock m []).mode = true ∧
    (newBlock m []).levels = Levels.allUnknown ∧ (newBlock m []).latch = [] ∧
    AllOk (initProgram (newBlock m []).mode) (newBlock m []) :=
  ⟨rfl, by cases m <;> decide, rfl, rfl, newBlock_allOk m _ (by cases m <;> decide +kernel)⟩

/-- FailedInitReleasesEveryClaim, FailedInitLeavesNothing, FailedInitReleaseCount: V14, the third claim fails (k = 2). -/
theorem witness_FailedInit :
    (newBlock .fourBit [5]).phase = .uninit ∧
    validPinMap (newBlock .fourBit [5]).pinmap (newBlock .fourBit [5]).mode = true ∧
    (newBlock .fourBit [5]).claimed = [] ∧ (newBlock .fourBit [5]).levels = Levels.allUnknown ∧
    (newBlock .fourBit [5]).cursor = none ∧ (drv .fourBit)[2]? = some .d4 ∧
    FirstFails (initProgram (newBlock .fourBit [5]).mode) (2 * 2) (.cfg .d4) (newBlock .fourBit [5]) :=
  ⟨rfl, by decide, rfl, rfl, rfl, rfl,
    allOk_of_planned _ _ (by decide) (by decide), by decide, by decide, by decide⟩

/-- The first place after the last claim: the drive-low of D7 (place 11 of a FourBit INIT). -/
theorem witness_FailedInit_after_claims :
    2 * ((drv .fourBit).length - 1) < 11 ∧
    FirstFails (initProgram .fourBit) 11 (.wr .d7 .low) (newBlock .fourBit [12]) :=
  ⟨by decide, allOk_of_planned _ _ (by decide) (by decide), by decide, by decide, by decide⟩

theorem witness_Teardown :
    (readyBlock .fourBit []).phase = .ready ∧
    (readyBlock .fourBit []).claimed = (readyBlock .fourBit []).drvPins ∧
    (∀ sg ∈ [Signal.d0, .d1, .d2, .d3], sg ∉ drv (readyBlock .fourBit []).mode ∧
      levelAt (readyBlock .fourBit []).levels sg = .unknown) ∧
    (newBlock .fourBit []).phase ≠ .ready := by decide

theorem witness_ConstructionState :
    newBlock .fourBit [] = { State.construct .fourBit pins ⟨16, 2⟩ with port := ⟨[], 1000⟩ } := rfl

/-- PhaseFollowsItsTable, CursorIsWrittenByStepEightOnly, FailureResultsNameTheirPrimitive, GeometryIsReadByNoRequest,
ModeAndPinMapNeverChange, OnlyDrivenPinsAreTouched: a request and its next state, for each kind of request. -/
theorem witness_Exec :
    (∃ t, exec .init (newBlock .fourBit []) = .next t) ∧
    (∃ t, exec .teardown (readyBlock .fourBit []) = .next t) ∧
    (∃ t, exec (.sendCmd 0x00#8) (readyBlock .fourBit []) = .next t) ∧
    (∀ p ∈ (readyBlock .fourBit []).claimed, p ∈ (readyBlock .fourBit []).drvPins) :=
  ⟨⟨_, rfl⟩, ⟨_, rfl⟩, ⟨_, rfl⟩, fun _ h => h⟩

/-- FailureResultsNameTheirPrimitive: each of its three results occurs. -/
theorem witness_FailureResults :
    (run .init (newBlock .fourBit [1])).result = some (.initError .configurationError 1) ∧
    (run .init (newBlock .fourBit [2])).result = some (.initError .ioError 2) ∧
    (run (.sendCmd 0x01#8) (readyBlock .fourBit [1])).result = some (.ioError 1) := by decide +kernel

/-- ReleasedForGood, TeardownState, TraceAndLatchOnlyGrow: a RELEASED block that takes a step. -/
theorem witness_Released :
    (run .teardown (newBlock .fourBit [])).phase = .released ∧
    (∃ t, step (run .teardown (newBlock .fourBit [])) = .next t) ∧
    Instr.sendCmd 0x01#8 ≠ .teardown :=
  ⟨rfl, ⟨_, rfl⟩, by decide⟩

/-- StepKeepsTheBlockSound, PinsAreClaimedAtMostOnce: a sound READY block, its claims distinct, that takes a step. -/
theorem witness_Sound :
    Inv (readyBlock .eightBit []) ∧
    (((readyBlock .eightBit []).trace.filter isCfg).map eventPin).Nodup ∧
    ∃ t, step (pushRequest (.req10 0x341#10) (readyBlock .eightBit [])) = .next t := by
  refine ⟨⟨rfl, fun _ => ⟨rfl, by decide, rfl⟩, fun h => absurd rfl h, ?_, fun h => ?_, ?_, ?_⟩,
    by decide, ⟨_, rfl⟩⟩
  · intro sg hs
    cases sg <;> exact absurd (by decide) hs
  · cases h
  · intro ev h; cases h
  · intro l h; cases h

end Sys2Proof.Tests
end

/-! ### What a step takes from the queue (R13, R20) -/

namespace Sys2Proof.Machine

theorem requestOf_of_decode {w : ReqWord} {i : Instr} (h : decode w = .instr i) :
    requestOf w = some i := by
  simp [requestOf, h]

/-- With no request issued a step changes nothing (log entry 7). -/
theorem step_of_noRequest {s : State} (h : s.requests = []) : step s = .next s := by
  simp [step, takeRequest, h]

/-- A step takes the next word off the queue and runs its request. -/
theorem step_of_request {s : State} {w : ReqWord} {rest : List ReqWord} {i : Instr}
    (hq : s.requests = w :: rest) (hw : requestOf w = some i) :
    step s = exec i (s.setRequests rest) := by
  simp [step, takeRequest, hq, hw]

/-- A step takes a reserved word off the queue and refuses it (R72, R204). -/
theorem step_of_reserved {s : State} {w : ReqWord} {rest : List ReqWord}
    (hq : s.requests = w :: rest) (hw : requestOf w = none) :
    step s = .next (refuse .reservedRequest (s.setRequests rest)) := by
  simp [step, takeRequest, hq, hw]

/-- Settles O12: a word that decodes to an instruction asks for that instruction, and the step runs it with the rest
still queued. -/
theorem stepRunsTheDecodedRequest : Obligations.StepRunsTheDecodedRequest := by
  intro s w rest i hq hd _
  exact step_of_request hq (requestOf_of_decode hd)

/-! ### What a block is given, and no request writes (R6, R20 to R24, R36) -/

/-- What reaches the block from outside: the construction inputs, the caller's queue, the Port's planned answers. -/
structure Inputs where
  mode     : Mode
  pinmap   : PinMap
  geometry : Geometry
  requests : List ReqWord
  port     : PortPlan

/-- The fields of the state that hold what reaches the block from outside. -/
def State.inputs (s : State) : Inputs := ⟨s.mode, s.pinmap, s.geometry, s.requests, s.port⟩

theorem State.inputs_eq_iff {s t : State} :
    t.inputs = s.inputs ↔ t.mode = s.mode ∧ t.pinmap = s.pinmap ∧ t.geometry = s.geometry ∧
      t.requests = s.requests ∧ t.port = s.port := by
  simp [State.inputs]

section Updates
variable (s : State)
@[simp] theorem State.setClaimed_inputs (ps : List PinId) : (s.setClaimed ps).inputs = s.inputs := rfl
@[simp] theorem State.setPhase_inputs (p : Phase) : (s.setPhase p).inputs = s.inputs := rfl
@[simp] theorem State.setSeq_inputs (q : Seq) : (s.setSeq q).inputs = s.inputs := rfl
@[simp] theorem State.setCursor_inputs (c : CursorState) : (s.setCursor c).inputs = s.inputs := rfl
@[simp] theorem State.setResult_inputs (r : Result) : (s.setResult r).inputs = s.inputs := rfl
@[simp] theorem refuse_inputs (r : RefuseReason) : (refuse r s).inputs = s.inputs := rfl
end Updates

@[simp] theorem okRun_inputs (ps : List Prim) (s : State) : (okRun ps s).inputs = s.inputs := by
  simp [State.inputs]

@[simp] theorem failPrim_inputs (p : Prim) (s : State) : (failPrim p s).inputs = s.inputs := by
  simp [State.inputs]

@[simp] theorem releaseAll_inputs (s : State) : (releaseAll s).inputs = s.inputs := by
  obtain ⟨lv, h, -⟩ := releaseAll_spec s
  rw [h]
  rfl

@[simp] theorem initAbort_inputs (k : ErrKind) (j : Nat) (s : State) :
    (initAbort k j s).inputs = s.inputs := by
  simp [initAbort]

@[simp] theorem sendRequest_inputs (v : Byte) (asData : Bool) (s : State) :
    (sendRequest v asData s).inputs = s.inputs := by
  obtain ⟨-, h⟩ | ⟨-, -, h⟩ | ⟨-, n, p, -, h⟩ := sendRequest_cases v asData s <;> simp [h]

@[simp] theorem teardownRequest_inputs (s : State) : (teardownRequest s).inputs = s.inputs := by
  obtain ⟨-, h⟩ | ⟨-, h⟩ := teardownRequest_cases s <;> simp [h]

/-- A step of the sequencer writes SEQ, what its primitives write, and at S8_MARK CURSOR (R131, R140). -/
@[simp] theorem seqStep_inputs (c : CmdV) (s : State) : (seqStep c s).inputs = s.inputs := by
  obtain ⟨-, hr⟩ | ⟨n, p, -, hr⟩ := runPrims_cases (seqPrims c s.mode s.seq) s
  · simp only [seqStep, hr, State.setSeq_inputs]
    split <;> simp
  · simp [seqStep, hr]

@[simp] theorem seqRun_inputs (c : CmdV) (n : Nat) (s : State) : (seqRun c n s).inputs = s.inputs := by
  induction n generalizing s with
  | zero => rfl
  | succ n ih => by_cases he : seqEnded s.seq = true <;> simp [seqRun, he, ih]

@[simp] theorem finishInit_inputs (s : State) : (finishInit s).inputs = s.inputs := by
  unfold finishInit
  split <;> simp

@[simp] theorem initRequest_inputs (c : CmdV) (s : State) : (initRequest c s).inputs = s.inputs := by
  unfold initRequest
  split
  · split <;> simp
  · simp

/-- Every request runs to a next state and leaves alone what reaches the block from outside. -/
theorem exec_completes (i : Instr) (s : State) : ∃ t, exec i s = .next t ∧ t.inputs = s.inputs := by
  cases hc : Safety.carriedByte i with
  | some b => exact ⟨_, exec_of_carriedByte s hc, sendRequest_inputs ..⟩
  | none =>
    cases i with
    | init => exact ⟨_, rfl, initRequest_inputs ..⟩
    | teardown => exact ⟨_, rfl, teardownRequest_inputs _⟩
    | _ => cases hc

/-- Every step runs to a next state; of what reaches the block from outside it changes only the queue. -/
theorem step_completes (s : State) :
    ∃ t ws, step s = .next t ∧ t.inputs = (s.setRequests ws).inputs := by
  cases hq : s.requests with
  | nil => exact ⟨s, [], step_of_noRequest hq, by simp [State.inputs, hq]⟩
  | cons w rest =>
    cases hw : requestOf w with
    | none => exact ⟨_, rest, step_of_reserved hq hw, refuse_inputs ..⟩
    | some i =>
      obtain ⟨t, ht, hin⟩ := exec_completes i (s.setRequests rest)
      exact ⟨t, rest, (step_of_request hq hw).trans ht, hin⟩

/-- Settles O42: no request and no step stops or writes a construction input or the Port's plan, and no request touches
the queue. -/
theorem everyRequestCompletes : Obligations.EveryRequestCompletes := by
  constructor
  · intro i s
    obtain ⟨t, ht, hin⟩ := exec_completes i s
    exact ⟨t, ht, State.inputs_eq_iff.mp hin⟩
  · intro s
    obtain ⟨t, ws, ht, hin⟩ := step_completes s
    obtain ⟨hmode, hpinmap, hgeometry, -, hport⟩ := State.inputs_eq_iff.mp hin
    exact ⟨t, ht, hmode, hpinmap, hgeometry, hport⟩

end Sys2Proof.Machine

namespace Sys2Proof.Machine

open Sys2Proof.Safety

/-! ### Everything a request and a step can be (R13, R20, R71) -/

/-- Everything a request can be: INIT, TEARDOWN, or the SEND of the byte it carries. -/
theorem exec_cases (i : Instr) (s : State) :
    (i = .init ∧ exec i s = .next (initRequest cmdvTable s)) ∨
    (i = .teardown ∧ exec i s = .next (teardownRequest s)) ∨
    (∃ v asData, carriedByte i = some (v, asData) ∧ exec i s = .next (sendRequest v asData s)) := by
  cases hc : carriedByte i with
  | some b => exact .inr (.inr ⟨b.1, b.2, rfl, exec_of_carriedByte s hc⟩)
  | none =>
    cases i with
    | init => exact .inl ⟨rfl, rfl⟩
    | teardown => exact .inr (.inl ⟨rfl, rfl⟩)
    | _ => cases hc

/-- Everything a step can be: waiting, refusing a reserved word, or running a request. -/
theorem step_cases {s t : State} (h : step s = .next t) :
    t = s ∨ (∃ rest, t = refuse .reservedRequest (s.setRequests rest)) ∨
      (∃ i rest, exec i (s.setRequests rest) = .next t) := by
  cases hq : s.requests with
  | nil => rw [step_of_noRequest hq] at h; cases h; exact .inl rfl
  | cons w rest =>
    cases hw : requestOf w with
    | none => rw [step_of_reserved hq hw] at h; cases h; exact .inr (.inl ⟨rest, rfl⟩)
    | some i => rw [step_of_request hq hw] at h; exact .inr (.inr ⟨i, rest, h⟩)

/-! ### The sequencer runs the straight program (R130 to R141) -/

/-- What the sequencer issues in `n` steps from SEQ = `q`, when each succeeds. -/
def seqProgram (c : CmdV) (m : Mode) : Nat → Seq → List Prim
  | 0, _ => []
  | n + 1, q => seqPrims c m q ++ seqProgram c m n (seqNext m q)

/-- Does SEQ, from `q`, come to S8_MARK after `n` successful steps and not before? -/
def marksAfter (m : Mode) : Nat → Seq → Bool
  | 0, q => q == .s8Mark
  | n + 1, q => !seqEnded q && q != .s8Mark && marksAfter m n (seqNext m q)

/-- From SEQ = `q` the loop runs its steps' primitives as one program, then marks CURSOR, or aborts. -/
theorem seqFrom_eq_runPrims (c : CmdV) (n : Nat) (q : Seq) (s : State)
    (h : marksAfter s.mode n q = true) :
    seqFrom c (n + 1) q s =
      match runPrims (seqProgram c s.mode n q) s with
      | .ok t => (((markClear t).setPhase .ready).setSeq .idle).setResult .ok
      | .fail k j t => initAbort k j t := by
  induction n generalizing q s with
  | zero =>
    obtain rfl : q = .s8Mark := by simpa [marksAfter] using h
    exact seqFrom_mark c 0 s
  | succ n ih =>
    simp only [marksAfter, Bool.and_eq_true, Bool.not_eq_true', bne_iff_ne] at h
    obtain ⟨⟨he, hm⟩, hn⟩ := h
    rw [seqFrom_step c (n + 1) q s he hm, seqProgram, runPrims_append]
    obtain ⟨-, hr⟩ | ⟨k, p, -, hr⟩ := runPrims_cases (seqPrims c s.mode q) s
    · simp only [hr]
      have hmode : (okRun (seqPrims c s.mode q) s).mode = s.mode := okRun_mode ..
      have := ih (seqNext s.mode q) (okRun (seqPrims c s.mode q) s) (by rwa [hmode])
      rwa [hmode] at this
    · simp only [hr]

/-- The steps S1(0) to S8_POS issue the program of R132 to R140, and S8_MARK follows. -/
theorem seqProgram_eq_initProgram (m : Mode) :
    ∃ n, seqLength m = n + 1 ∧ marksAfter m n (.s1 0) = true ∧
      seqProgram cmdvTable m n (.s1 0) = initProgram m := by
  cases m with
  | fourBit => exact ⟨14, rfl, rfl, rfl⟩
  | eightBit => exact ⟨18, rfl, rfl, rfl⟩

/-- INIT of an UNINIT block with a valid PINMAP runs its straight program, then ends READY or aborts. -/
theorem initRequest_eq_runPrims {s : State} (hp : s.phase = .uninit)
    (hv : validPinMap s.pinmap s.mode = true) :
    initRequest cmdvTable s =
      match runPrims (initProgram s.mode) s with
      | .ok t => (((markClear t).setPhase .ready).setSeq .idle).setResult .ok
      | .fail k j t => initAbort k j t := by
  obtain ⟨n, hlen, hmark, hprog⟩ := seqProgram_eq_initProgram s.mode
  rw [initRequest_of_valid _ _ hp hv, hlen, seqFrom_eq_runPrims _ _ _ _ hmark, hprog]

end Sys2Proof.Machine

namespace Sys2Proof.Machine

open Sys2Proof.Safety

/-! ### One primitive, by the Port's answer (R11, R29, R31) -/

theorem runPrim_of_ok {p : Prim} {s : State} (h : s.portAnswer s.nextIndex = .ok) :
    runPrim p s = .ok (okPrim p s) := by
  obtain ⟨hr, -⟩ | ⟨-, -, hf⟩ := runPrim_cases p s
  · exact hr
  · rw [h] at hf; cases hf

theorem runPrim_of_failed {p : Prim} {s : State} (ha : asks p = true)
    (h : s.portAnswer s.nextIndex = .failed) :
    runPrim p s = .fail (failureOf p) s.nextIndex (failPrim p s) := by
  obtain ⟨-, ho⟩ | ⟨hr, -⟩ := runPrim_cases p s
  · rw [ho ha] at h; cases h
  · exact hr

theorem eq_okPrim_of_runPrim {p : Prim} {s t : State} (h : runPrim p s = .ok t) : t = okPrim p s := by
  obtain ⟨hr, -⟩ | ⟨hr, -⟩ := runPrim_cases p s <;> rw [hr] at h <;> cases h
  rfl

theorem eq_failPrim_of_runPrim {p : Prim} {s t : State} {k : ErrKind} {j : Nat}
    (h : runPrim p s = .fail k j t) : t = failPrim p s := by
  obtain ⟨hr, -⟩ | ⟨hr, -⟩ := runPrim_cases p s <;> rw [hr] at h <;> cases h
  rfl

/-- Only a write of L to E is an edge (R31). -/
theorem okPrim_latch_of_ne {p : Prim} (s : State) (h : p ≠ .wr .e .low) :
    (okPrim p s).latch = s.latch := by
  cases p with
  | cfg sg => rfl
  | hold => rfl
  | wr sg d =>
    have hne : ¬(sg = .e ∧ d = .low) := fun ⟨hsg, hd⟩ => h (by rw [hsg, hd])
    simp [okPrim, latchOnWrite, hne]

theorem okPrim_latch_lowerE (s : State) :
    (okPrim (.wr .e .low) s).latch = s.latch ++ latchOnWrite s .e .low := rfl

theorem latchOnWrite_of_high {s : State} (h : s.levels.e = .high) :
    latchOnWrite s .e .low = [.latch s.levels.rs (busOf s.mode s.levels)] := by
  simp [latchOnWrite, h]

theorem latchOnWrite_of_unknown {s : State} (h : s.levels.e = .unknown) :
    latchOnWrite s .e .low = [.maybeLatch s.levels.rs (busOf s.mode s.levels)] := by
  simp [latchOnWrite, h]

theorem latchOnWrite_of_low {s : State} (h : s.levels.e = .low) : latchOnWrite s .e .low = [] := by
  simp [latchOnWrite, h]

/-- A write that is `ok` leaves the level it drives, and the other levels as they were (R29). -/
theorem okPrim_levels_wr (sg sg' : Signal) (d : Drive) (s : State) :
    levelAt (okPrim (.wr sg d) s).levels sg' =
      if sg' = sg then driveLevel d else levelAt s.levels sg' := by
  by_cases h : sg' = sg
  · subst h; simp [okPrim]
  · simp [okPrim, h, levelAt_setLevelAt_other]

/-- A write that fails leaves X (R29, D21). -/
theorem failPrim_levels_wr (sg sg' : Signal) (d : Drive) (s : State) :
    levelAt (failPrim (.wr sg d) s).levels sg' =
      if sg' = sg then .unknown else levelAt s.levels sg' := by
  by_cases h : sg' = sg
  · subst h; simp [failPrim]
  · simp [failPrim, h, levelAt_setLevelAt_other]

/-- Settles O15: what each primitive leaves in LVL. -/
theorem levelsFollowTheWrites : Obligations.LevelsFollowTheWrites := by
  refine ⟨fun sg d s h => ?_, fun sg d s h => ?_, fun p s sg hsg => ?_, fun sg s h => ?_⟩
  · exact ⟨_, runPrim_of_ok (p := .wr sg d) h, by simp [okPrim_levels_wr],
      fun sg' hne => by simp [okPrim_levels_wr, hne]⟩
  · exact ⟨_, runPrim_of_failed (p := .wr sg d) rfl h, by simp [failPrim_levels_wr],
      fun sg' hne => by simp [failPrim_levels_wr, hne]⟩
  · simp [portRel_levels, hsg]
  · exact ⟨_, runPrim_of_ok (p := .cfg sg) h, rfl⟩

/-- Settles O16: an `ok` write of L to E latches by the level E had; nothing else latches. -/
theorem latchesAtTheFallingEdge : Obligations.LatchesAtTheFallingEdge := by
  refine ⟨fun s h => ⟨_, runPrim_of_ok (p := .wr .e .low) h, ?_⟩, fun s t k j h => ?_,
    fun p s t hp h => ?_, fun p s => rfl, fun lv => ⟨rfl, rfl⟩⟩
  · rw [okPrim_latch_lowerE]
    cases hE : s.levels.e with
    | low => simp [latchOnWrite_of_low hE]
    | high => simp [latchOnWrite_of_high hE]
    | unknown => simp [latchOnWrite_of_unknown hE]
  · rw [eq_failPrim_of_runPrim h, failPrim_latch]
  · obtain hok | ⟨k, j, hfail⟩ := h
    · rw [eq_okPrim_of_runPrim hok, okPrim_latch_of_ne s hp]
    · rw [eq_failPrim_of_runPrim hfail, failPrim_latch]

/-- Settles O17: only a `PortCfg` that is `ok` adds to CLAIMED, and releasing every claim empties it. -/
theorem claimsFollowTheConfigures : Obligations.ClaimsFollowTheConfigures := by
  refine ⟨fun sg s h => ?_, fun sg s h => ?_, fun sg d s t h => ?_, fun s => ⟨_, rfl, rfl⟩,
    fun p s => rfl, fun s => rfl⟩
  · exact ⟨_, runPrim_of_ok (p := .cfg sg) h, rfl⟩
  · exact ⟨_, runPrim_of_failed (p := .cfg sg) rfl h, rfl⟩
  · obtain hok | ⟨k, j, hfail⟩ := h
    · rw [eq_okPrim_of_runPrim (p := .wr sg d) hok]; rfl
    · rw [eq_failPrim_of_runPrim (p := .wr sg d) hfail]; rfl

/-! ### Strobes (R100, R103) -/

/-- A run without a write of L to E latches nothing. -/
theorem okRun_latch_of_noEdge {ps : List Prim} (s : State) (h : Prim.wr .e .low ∉ ps) :
    (okRun ps s).latch = s.latch := by
  induction ps generalizing s with
  | nil => rfl
  | cons p ps ih =>
    have hp : p ≠ .wr .e .low := (List.ne_of_not_mem_cons h).symm
    rw [okRun_cons, ih _ (List.not_mem_of_not_mem_cons h), okPrim_latch_of_ne s hp]

/-- Writes with a whole strobe after each block of them, none of the writes to E. -/
def WholeStrobes (ps : List Prim) : Prop :=
  ∃ blocks, ps = strobed blocks ∧ ∀ b ∈ blocks, ∀ p ∈ b, writesE p = false ∧ p ≠ .hold

theorem wholeStrobes_sendBytePrims (m : Mode) (v : Byte) (asData : Bool) :
    WholeStrobes (sendBytePrims m v asData) := by
  cases m with
  | fourBit =>
    exact ⟨[.wr .rs (driveOf asData) :: putNibblePrims (highNibble v), putNibblePrims (lowNibble v)],
      rfl, by simp [putNibblePrims, writesE]⟩
  | eightBit =>
    exact ⟨[.wr .rs (driveOf asData) :: putBytePrims v], rfl, by simp [putBytePrims, writesE]⟩

/-- Every step of the sequencer but step 1 is made of whole strobes. -/
theorem wholeStrobes_seqPrims (c : CmdV) (m : Mode) {q : Seq} (hq : ∀ i, q ≠ .s1 i) :
    WholeStrobes (seqPrims c m q) := by
  cases q with
  | s1 i => exact absurd rfl (hq i)
  | s2 => exact ⟨[[.wr .rs .low, .wr .d4 .high, .wr .d5 .high], [], []], rfl, by simp [writesE]⟩
  | s3 => exact ⟨[[.wr .d4 (driveOf (m == .eightBit))]], rfl, by simp [writesE]⟩
  | s4 | s5 | s6 | s7 | s8Clear | s8Pos => exact wholeStrobes_sendBytePrims m _ _
  | idle | s8Mark | done | abort _ _ => exact ⟨[], rfl, by simp⟩

/-- Only the two writes of a strobe can fail. -/
theorem strobe_failing_place {n : Nat} {p : Prim} {s : State} (h : FirstFails strobePrims n p s) :
    (n = 0 ∧ p = .wr .e .high) ∨ (n = 2 ∧ p = .wr .e .low) := by
  obtain ⟨-, hp, ha, -⟩ := h
  match n with
  | 0 => cases hp; exact .inl ⟨rfl, rfl⟩
  | 1 => cases hp; cases ha
  | 2 => cases hp; exact .inr ⟨rfl, rfl⟩
  | 3 => cases hp; cases ha
  | n + 4 => cases hp

/-- A strobe that goes through makes one certain latch, whatever the level of E was (R109). -/
theorem okRun_strobePrims_latch (s : State) :
    (okRun strobePrims s).latch = s.latch ++ [.latch s.levels.rs (busOf s.mode s.levels)] := by
  cases hm : s.mode <;> simp [strobePrims, okPrim, latchOnWrite, setLevelAt, busOf, hm]

/-- Settles O18: a strobe's effect and its failures, and that everything after step 1 is whole strobes. -/
theorem strobeRaisesAndLowersE : Obligations.StrobeRaisesAndLowersE := by
  refine ⟨fun s h => ⟨_, runPrims_ok h, okRun_trace .., rfl, okRun_strobePrims_latch s⟩,
    fun s n p h => ?_, fun c m q hq => wholeStrobes_seqPrims c m hq, wholeStrobes_sendBytePrims,
    fun n d => by simp [putNibblePrims], fun v d => by simp [putBytePrims]⟩
  obtain ⟨rfl, rfl⟩ | ⟨rfl, rfl⟩ := strobe_failing_place h
  · refine ⟨.inl rfl, _, runPrims_fail h, by simp [failPrim_levels_wr], ?_⟩
    rw [failPrim_latch, okRun_latch_of_noEdge s (by decide)]
  · refine ⟨.inr rfl, _, runPrims_fail h, by simp [failPrim_levels_wr], ?_⟩
    rw [failPrim_latch, okRun_latch_of_noEdge s (by decide)]

/-! ### Construction, issued words, PINMAP -/

/-- Settles O41: the values of R37, and reset as the construction from the model's own inputs. -/
theorem constructionState : Obligations.ConstructionState := by
  refine ⟨?_, _, _, _, rfl⟩
  rintro m pm g s rfl
  exact ⟨rfl, rfl, rfl, rfl, rfl, rfl, levelAt_allUnknown, rfl, rfl, rfl, rfl, rfl⟩

/-- A number of the opcode table that decodes is a word whose request is that instruction. -/
theorem tableWord_of_decodeTableWord {nbits w : Nat} {i : Instr}
    (h : decodeTableWord nbits w = some i) :
    ∃ word, tableWord nbits w = some word ∧ requestOf word = some i := by
  unfold decodeTableWord at h
  split at h
  · cases h
  next word hword =>
    split at h
    next j hd => cases h; exact ⟨word, hword, requestOf_of_decode hd⟩
    · cases h
    · cases h

/-- Settles O13: the word stands first in the queue, and the step that takes it leaves the queue as it was. -/
theorem issuedTableWordRuns : Obligations.IssuedTableWordRuns := by
  intro s nbits w i h
  obtain ⟨word, hword, hreq⟩ := tableWord_of_decodeTableWord h
  have hs : s.withFetchWord nbits w = pushRequest word s := by simp [State.withFetchWord, hword]
  rw [hs, step_of_request (rest := s.requests) rfl hreq]
  rfl

theorem drv_nodup (m : Mode) : (drv m).Nodup := by cases m <;> decide

theorem validPinMap_iff {pm : PinMap} {m : Mode} :
    validPinMap pm m = true ↔
      (∀ sg ∈ drv m, (pinEntry pm sg).isSome = true) ∧ ((drv m).map (pinEntry pm)).Nodup := by
  simp [validPinMap]

/-- Settles O28: on the duplicate-free DRV(MODE), distinct entries are an injective map. -/
theorem pinMapValidity : Obligations.PinMapValidity := by
  refine ⟨rfl, rfl, fun pm m => ?_, fun pm a b c d => rfl⟩
  rw [validPinMap_iff, List.nodup_map_iff_inj_on (drv_nodup m)]
  simp only [Option.isSome_iff_exists]

end Sys2Proof.Machine

namespace Sys2Proof.Machine

open Sys2Proof.Safety

/-! ### Requests, by phase and by the Port's answers -/

theorem sendRequest_of_notReady (v : Byte) (asData : Bool) {s : State} (hp : s.phase ≠ .ready) :
    sendRequest v asData s = s.setResult (.refused .notReady) := by
  simp [sendRequest, hp, refuse]

theorem sendRequest_of_allOk {v : Byte} {asData : Bool} {s : State} (hp : s.phase = .ready)
    (h : AllOk (sendBytePrims s.mode v asData) s) :
    sendRequest v asData s = (okRun (sendBytePrims s.mode v asData) s).setResult .ok := by
  simp [sendRequest, hp, runPrims_ok h]

theorem sendRequest_of_firstFails {v : Byte} {asData : Bool} {s : State} {n : Nat} {p : Prim}
    (hp : s.phase = .ready) (h : FirstFails (sendBytePrims s.mode v asData) n p s) :
    sendRequest v asData s =
      (failPrim p (okRun ((sendBytePrims s.mode v asData).take n) s)).setResult
        (.ioError (s.trace.length + n + 1)) := by
  simp [sendRequest, hp, runPrims_fail h, sendFailed]

theorem initRequest_of_notUninit (c : CmdV) {s : State} (hp : s.phase ≠ .uninit) :
    initRequest c s = s.setResult (.refused .notReady) := by
  simp [initRequest, hp, refuse]

theorem initRequest_of_invalid (c : CmdV) {s : State} (hp : s.phase = .uninit)
    (hv : validPinMap s.pinmap s.mode = false) :
    initRequest c s = s.setResult (.refused .invalidConfig) := by
  simp [initRequest, hp, hv, refuse]

/-- INIT when no primitive fails (R141). -/
theorem initRequest_of_allOk {s : State} (hp : s.phase = .uninit)
    (hv : validPinMap s.pinmap s.mode = true) (h : AllOk (initProgram s.mode) s) :
    initRequest cmdvTable s =
      ((((okRun (initProgram s.mode) s).setCursor ⟨0, 0, true⟩).setPhase .ready).setSeq
        .idle).setResult .ok := by
  simp [initRequest_eq_runPrims hp hv, runPrims_ok h]

/-- INIT when the primitive at place `n` is the first that fails (R142). -/
theorem initRequest_of_firstFails {s : State} {n : Nat} {p : Prim} (hp : s.phase = .uninit)
    (hv : validPinMap s.pinmap s.mode = true) (h : FirstFails (initProgram s.mode) n p s) :
    initRequest cmdvTable s =
      initAbort (failureOf p) (s.trace.length + n + 1)
        (failPrim p (okRun ((initProgram s.mode).take n) s)) := by
  simp [initRequest_eq_runPrims hp hv, runPrims_fail h]

/-- Everything INIT can do: refused for the phase or the PINMAP, READY, or aborted at the first failure. -/
theorem initRequest_cases (s : State) :
    (s.phase ≠ .uninit ∧ initRequest cmdvTable s = s.setResult (.refused .notReady)) ∨
    (s.phase = .uninit ∧ validPinMap s.pinmap s.mode = false ∧
      initRequest cmdvTable s = s.setResult (.refused .invalidConfig)) ∨
    (s.phase = .uninit ∧ validPinMap s.pinmap s.mode = true ∧ AllOk (initProgram s.mode) s ∧
      initRequest cmdvTable s =
        ((((okRun (initProgram s.mode) s).setCursor ⟨0, 0, true⟩).setPhase .ready).setSeq
          .idle).setResult .ok) ∨
    (s.phase = .uninit ∧ validPinMap s.pinmap s.mode = true ∧
      ∃ n p, FirstFails (initProgram s.mode) n p s ∧
        initRequest cmdvTable s =
          initAbort (failureOf p) (s.trace.length + n + 1)
            (failPrim p (okRun ((initProgram s.mode).take n) s))) := by
  by_cases hp : s.phase = .uninit
  · cases hv : validPinMap s.pinmap s.mode with
    | false => exact .inr (.inl ⟨hp, rfl, initRequest_of_invalid _ hp hv⟩)
    | true =>
      obtain h | ⟨n, p, h⟩ := allOk_or_firstFails (initProgram s.mode) s
      · exact .inr (.inr (.inl ⟨hp, rfl, h, initRequest_of_allOk hp hv h⟩))
      · exact .inr (.inr (.inr ⟨hp, rfl, n, p, h, initRequest_of_firstFails hp hv h⟩))
  · exact .inl ⟨hp, initRequest_of_notUninit _ hp⟩

/-! ### What releasing and aborting leave (R142, R144) -/

section Release
variable (s : State)
@[simp] theorem releaseAll_mode : (releaseAll s).mode = s.mode := by
  obtain ⟨lv, h, -⟩ := releaseAll_spec s; rw [h]
@[simp] theorem releaseAll_pinmap : (releaseAll s).pinmap = s.pinmap := by
  obtain ⟨lv, h, -⟩ := releaseAll_spec s; rw [h]
@[simp] theorem releaseAll_phase : (releaseAll s).phase = s.phase := by
  obtain ⟨lv, h, -⟩ := releaseAll_spec s; rw [h]
@[simp] theorem releaseAll_seq : (releaseAll s).seq = s.seq := by
  obtain ⟨lv, h, -⟩ := releaseAll_spec s; rw [h]
@[simp] theorem releaseAll_claimed : (releaseAll s).claimed = [] := rfl
@[simp] theorem releaseAll_latch : (releaseAll s).latch = s.latch := by
  obtain ⟨lv, h, -⟩ := releaseAll_spec s; rw [h]
@[simp] theorem releaseAll_cursor : (releaseAll s).cursor = s.cursor := by
  obtain ⟨lv, h, -⟩ := releaseAll_spec s; rw [h]
@[simp] theorem releaseAll_trace :
    (releaseAll s).trace = s.trace ++ s.claimed.map Event.rel := by
  obtain ⟨lv, h, -⟩ := releaseAll_spec s; rw [h]
@[simp] theorem releaseAll_drvPins : (releaseAll s).drvPins = s.drvPins := by
  obtain ⟨lv, h, -⟩ := releaseAll_spec s; rw [h]; rfl

theorem levelAt_releaseAll (sg : Signal) :
    levelAt (releaseAll s).levels sg =
      if sg ∈ drv s.mode ∧ s.pin sg ∈ s.claimed then .unknown else levelAt s.levels sg := by
  obtain ⟨lv, h, hl⟩ := releaseAll_spec s
  rw [h]
  exact hl sg

@[simp] theorem initAbort_phase (k : ErrKind) (j : Nat) : (initAbort k j s).phase = .released := rfl
@[simp] theorem initAbort_result (k : ErrKind) (j : Nat) :
    (initAbort k j s).result = some (.initError k j) := rfl
@[simp] theorem initAbort_cursor (k : ErrKind) (j : Nat) : (initAbort k j s).cursor = s.cursor := by
  simp [initAbort]
@[simp] theorem initAbort_latch (k : ErrKind) (j : Nat) : (initAbort k j s).latch = s.latch := by
  simp [initAbort]
@[simp] theorem initAbort_trace (k : ErrKind) (j : Nat) :
    (initAbort k j s).trace = s.trace ++ s.claimed.map Event.rel := by
  simp [initAbort]
end Release

/-- When every known level is of a driven signal on a claimed pin, releasing the claims leaves every level X. -/
theorem releaseAll_forgets {s : State}
    (h : ∀ sg, levelAt s.levels sg ≠ .unknown → sg ∈ drv s.mode ∧ s.pin sg ∈ s.claimed) :
    (releaseAll s).levels = Levels.allUnknown := by
  refine levels_ext fun sg => ?_
  rw [levelAt_releaseAll, levelAt_allUnknown]
  by_cases hk : levelAt s.levels sg = .unknown
  · simp [hk]
  · simp [h sg hk]

/-! ### The table of PHASE (R26) -/

/-- No byte transfer claims a pin. -/
theorem claimOf_sendBytePrims {m : Mode} {v : Byte} {asData : Bool} :
    (sendBytePrims m v asData).filterMap claimOf = [] := by
  cases m <;> rfl

/-- A byte transfer can only fail with IOError (R202). -/
theorem failureOf_sendBytePrims {m : Mode} {v : Byte} {asData : Bool} {p : Prim}
    (hp : p ∈ sendBytePrims m v asData) : failureOf p = .ioError := by
  have hc : claimOf p = none :=
    List.filterMap_eq_nil_iff.mp claimOf_sendBytePrims p hp
  cases p with
  | cfg sg => cases hc
  | wr sg d => rfl
  | hold => rfl

theorem mem_of_firstFails {ps : List Prim} {n : Nat} {p : Prim} {s : State}
    (h : FirstFails ps n p s) : p ∈ ps := by
  obtain ⟨-, hp, -⟩ := h
  exact List.mem_of_getElem? hp

/-- A run that fails at place `n` has issued the `n` primitives before it and the failing one. -/
theorem trace_of_firstFails {ps : List Prim} {n : Nat} {p : Prim} {s : State}
    (h : FirstFails ps n p s) :
    (failPrim p (okRun (ps.take n) s)).trace.length = s.trace.length + n + 1 ∧
    (failPrim p (okRun (ps.take n) s)).trace[s.trace.length + n]? = some (eventOf s .failed p) := by
  obtain ⟨-, hp, -⟩ := h
  have hn : n ≤ ps.length := (List.getElem?_eq_some_iff.mp hp).1.le
  have hlen : (okRun (ps.take n) s).trace.length = s.trace.length + n := by
    simp [okRun_trace, hn]
  constructor
  · simp [hlen]
  · rw [failPrim_trace, eventOf_okRun, ← hlen, List.getElem?_concat_length]

/-- Settles O24: a byte transfer goes through or fails at its first failing primitive, which is a write. -/
theorem sendEndsInOkOrIoError : Obligations.SendEndsInOkOrIoError := by
  intro i v asData s hb hp
  refine ⟨_, exec_of_carriedByte s hb, ?_⟩
  obtain h | ⟨n, p, h⟩ := allOk_or_firstFails (sendBytePrims s.mode v asData) s
  · rw [sendRequest_of_allOk hp h]
    exact ⟨by simpa using hp, .inl ⟨rfl, h⟩⟩
  · obtain ⟨hlen, hlast⟩ := trace_of_firstFails h
    rw [sendRequest_of_firstFails hp h]
    refine ⟨by simpa using hp, .inr ⟨n, p, h, ?_, rfl, hlen, hlast⟩⟩
    exact failureOf_sendBytePrims (mem_of_firstFails h)

/-- Settles O43: MODE and PINMAP are among what reaches the block from outside, which every request and step keeps. -/
theorem modeAndPinMapNeverChange : Obligations.ModeAndPinMapNeverChange := by
  constructor
  · intro i s t h
    obtain ⟨u, hu, hin⟩ := exec_completes i s
    cases h.symm.trans hu
    obtain ⟨hmode, hpinmap, -⟩ := State.inputs_eq_iff.mp hin
    exact ⟨hmode, hpinmap⟩
  · intro s t h
    obtain ⟨u, ws, hu, hin⟩ := step_completes s
    cases h.symm.trans hu
    obtain ⟨hmode, hpinmap, -⟩ := State.inputs_eq_iff.mp hin
    exact ⟨hmode, hpinmap⟩

/-- Settles O44: the four cases of INIT, the three of SEND and the two of TEARDOWN, against the table. -/
theorem phaseFollowsItsTable : Obligations.PhaseFollowsItsTable := by
  intro i s t h
  obtain ⟨rfl, he⟩ | ⟨rfl, he⟩ | ⟨v, asData, hb, he⟩ := exec_cases i s
  · cases he.symm.trans h
    obtain ⟨hp, hr⟩ | ⟨hp, hv, hr⟩ | ⟨hp, hv, -, hr⟩ | ⟨hp, hv, n, p, -, hr⟩ := initRequest_cases s
    · simp [hr, hp, carriedByte]
    · simp [hr, hp, hv, carriedByte]
    · simp [hr, hp, hv, carriedByte]
    · simp [hr, hp, hv, carriedByte]
  · cases he.symm.trans h
    obtain ⟨hp, hr⟩ | ⟨hp, hr⟩ := teardownRequest_cases s <;> simp [hr, hp, carriedByte]
  · cases he.symm.trans h
    have hinit : i ≠ .init := by rintro rfl; cases hb
    have hteardown : i ≠ .teardown := by rintro rfl; cases hb
    obtain ⟨hp, hr⟩ | ⟨hp, -, hr⟩ | ⟨hp, n, p, -, hr⟩ := sendRequest_cases v asData s <;>
      simp [hr, hp, hb, hinit, hteardown]

/-- Settles O49: of all the cases of a request only INIT's success writes CURSOR. -/
theorem cursorIsWrittenByStepEightOnly : Obligations.CursorIsWrittenByStepEightOnly := by
  constructor
  · intro i s t h
    obtain ⟨rfl, he⟩ | ⟨rfl, he⟩ | ⟨v, asData, hb, he⟩ := exec_cases i s
    · cases he.symm.trans h
      obtain ⟨-, hr⟩ | ⟨-, -, hr⟩ | ⟨hp, -, -, hr⟩ | ⟨-, -, n, p, -, hr⟩ := initRequest_cases s
      · exact .inl (by simp [hr])
      · exact .inl (by simp [hr])
      · exact .inr ⟨rfl, hp, by simp [hr], by simp [hr]⟩
      · exact .inl (by simp [hr])
    · cases he.symm.trans h
      obtain ⟨-, hr⟩ | ⟨-, hr⟩ := teardownRequest_cases s <;> exact .inl (by simp [hr])
    · cases he.symm.trans h
      obtain ⟨-, hr⟩ | ⟨-, -, hr⟩ | ⟨-, n, p, -, hr⟩ := sendRequest_cases v asData s <;>
        exact .inl (by simp [hr])
  · intro s
    cases hc : s.cursor <;> simp [State.readCursor, hc]

/-! ### A RELEASED block (R146) -/

/-- What a RELEASED block answers (R145, R204). -/
def releasedResult (i : Instr) : Result :=
  if i = .teardown then .ok else .refused .notReady

/-- In RELEASED a request changes RESULT alone. -/
theorem exec_of_released (i : Instr) {s : State} (hp : s.phase = .released) :
    exec i s = .next (s.setResult (releasedResult i)) := by
  obtain ⟨rfl, he⟩ | ⟨rfl, he⟩ | ⟨v, asData, hb, he⟩ := exec_cases i s
  · rw [he, initRequest_of_notUninit _ (by simp [hp])]; rfl
  · have hs : s.setPhase .released = s := by rw [← hp]; rfl
    simp [he, teardownRequest, hp, hs, releasedResult]
  · have hi : i ≠ .teardown := by rintro rfl; cases hb
    rw [he, sendRequest_of_notReady _ _ (by simp [hp]), releasedResult, if_neg hi]

/-- In RELEASED a step takes the next word and changes RESULT, or waits; which of the two, and the RESULT, the queue
says. -/
theorem step_of_released {s : State} (hp : s.phase = .released) :
    (s.requests = [] ∧ step s = .next s) ∨
    (∃ w rest r, s.requests = w :: rest ∧
      ∀ t : State, t.phase = s.phase → t.requests = w :: rest →
        step t = .next ((t.setRequests rest).setResult r)) := by
  cases hq : s.requests with
  | nil => exact .inl ⟨rfl, step_of_noRequest hq⟩
  | cons w rest =>
    refine .inr ⟨w, rest, ?_⟩
    cases hw : requestOf w with
    | none => exact ⟨_, rfl, fun t _ ht => step_of_reserved ht hw⟩
    | some i => exact ⟨_, rfl, fun t hpt ht => (step_of_request ht hw).trans (exec_of_released i (hpt.trans hp))⟩

/-- Settles O45: in RELEASED a request and a step write RESULT, and a step the queue, and nothing else. -/
theorem releasedForGood : Obligations.ReleasedForGood := by
  constructor
  · intro s t hp h
    obtain ⟨-, hs⟩ | ⟨w, rest, r, hq, hs⟩ := step_of_released hp
    · cases hs.symm.trans h
      exact ⟨hp, rfl, rfl, rfl, rfl, rfl, rfl, rfl⟩
    · cases (hs s rfl hq).symm.trans h
      exact ⟨hp, rfl, rfl, rfl, rfl, rfl, rfl, rfl⟩
  · intro i s t hp hi h
    cases (exec_of_released i hp).symm.trans h
    simp [releasedResult, hi]

/-- Settles O40: TEARDOWN forgets every level, since the driven signals are all on claimed pins; a RELEASED block reads
its queue and its request, and no CURSOR. -/
theorem teardownState : Obligations.TeardownState := by
  constructor
  · intro s hp hclaimed hundriven
    have hlevels : (releaseAll s).levels = Levels.allUnknown := by
      refine releaseAll_forgets fun sg hk => ?_
      have hsg : sg ∈ drv s.mode := not_imp_comm.mp (hundriven sg) hk
      exact ⟨hsg, hclaimed ▸ List.mem_map_of_mem hsg⟩
    refine ⟨((releaseAll s).setPhase .released).setResult .ok, ?_, rfl, rfl, hlevels, rfl, by simp⟩
    simp [exec, execTeardown, teardownRequest, hp]
  · intro s c hp
    refine ⟨fun i => ⟨_, exec_of_released i hp, hp, rfl, exec_of_released i hp⟩, ?_⟩
    obtain ⟨hq, hs⟩ | ⟨w, rest, r, hq, hs⟩ := step_of_released hp
    · exact ⟨s, hs, hp, rfl, step_of_noRequest hq⟩
    · exact ⟨_, hs s rfl hq, hp, rfl, hs _ rfl hq⟩

/-! ### TRACE and LATCH only grow (R30, R31) -/

/-- `t` has at least the TRACE and the LATCH of `s`. -/
def Extends (s t : State) : Prop := s.trace <+: t.trace ∧ s.latch <+: t.latch

theorem Extends.refl (s : State) : Extends s s := ⟨List.prefix_rfl, List.prefix_rfl⟩

theorem Extends.trans {s t u : State} (h : Extends s t) (h' : Extends t u) : Extends s u :=
  ⟨h.1.trans h'.1, h.2.trans h'.2⟩

/-- Updates of other fields do not matter. -/
theorem Extends.congr {s t u : State} (h : Extends s t) (htrace : u.trace = t.trace)
    (hlatch : u.latch = t.latch) : Extends s u := by
  rw [Extends, htrace, hlatch]
  exact h

theorem extends_okPrim (p : Prim) (s : State) : Extends s (okPrim p s) := by
  refine ⟨by simp, ?_⟩
  cases p with
  | cfg sg => exact List.prefix_rfl
  | wr sg d => exact List.prefix_append _ _
  | hold => exact List.prefix_rfl

theorem extends_okRun (ps : List Prim) (s : State) : Extends s (okRun ps s) := by
  induction ps generalizing s with
  | nil => exact .refl s
  | cons p ps ih => exact (extends_okPrim p s).trans (ih _)

theorem extends_failPrim (p : Prim) (s : State) : Extends s (failPrim p s) := by
  simp [Extends]

theorem extends_releaseAll (s : State) : Extends s (releaseAll s) := by
  simp [Extends]

theorem extends_exec {i : Instr} {s t : State} (h : exec i s = .next t) : Extends s t := by
  obtain ⟨-, he⟩ | ⟨-, he⟩ | ⟨v, asData, -, he⟩ := exec_cases i s <;> cases he.symm.trans h
  · obtain ⟨-, hr⟩ | ⟨-, -, hr⟩ | ⟨-, -, -, hr⟩ | ⟨-, -, n, p, -, hr⟩ := initRequest_cases s <;> rw [hr]
    · exact (Extends.refl s).congr rfl rfl
    · exact (Extends.refl s).congr rfl rfl
    · exact (extends_okRun (initProgram s.mode) s).congr (by simp) (by simp)
    · have hrun := (extends_okRun ((initProgram s.mode).take n) s).trans (extends_failPrim p _)
      exact (hrun.trans (extends_releaseAll _)).congr (by simp) (by simp)
  · obtain ⟨-, hr⟩ | ⟨-, hr⟩ := teardownRequest_cases s <;> rw [hr]
    · exact (extends_releaseAll s).congr rfl rfl
    · exact (Extends.refl s).congr rfl rfl
  · obtain ⟨-, hr⟩ | ⟨-, -, hr⟩ | ⟨-, n, p, -, hr⟩ := sendRequest_cases v asData s <;> rw [hr]
    · exact (Extends.refl s).congr rfl rfl
    · exact (extends_okRun (sendBytePrims s.mode v asData) s).congr (by simp) (by simp)
    · have hrun := extends_okRun ((sendBytePrims s.mode v asData).take n) s
      exact (hrun.trans (extends_failPrim p _)).congr (by simp) (by simp)

theorem extends_step {s t : State} (h : step s = .next t) : Extends s t := by
  obtain rfl | ⟨rest, rfl⟩ | ⟨i, rest, he⟩ := step_cases h
  · exact .refl t
  · exact (Extends.refl s).congr rfl rfl
  · have hq : Extends s (s.setRequests rest) := (Extends.refl s).congr rfl rfl
    exact hq.trans (extends_exec he)

/-- Settles O46: every primitive, every release and so every request extends both lists. -/
theorem traceAndLatchOnlyGrow : Obligations.TraceAndLatchOnlyGrow := by
  intro s t h
  obtain ⟨⟨evs, hevs⟩, ⟨ls, hls⟩⟩ := extends_step h
  exact ⟨⟨evs, hevs.symm⟩, ⟨ls, hls.symm⟩⟩

end Sys2Proof.Machine

namespace Sys2Proof.Machine

open Sys2Proof.Safety

/-! ### What a run leaves, by induction over its primitives -/

/-- The state a run ends in, however it ends. -/
def Run.state (r : Run) : State :=
  match r with
  | .ok t => t
  | .fail _ _ t => t

theorem runPrims_state_of_allOk {ps : List Prim} {s : State} (h : AllOk ps s) :
    (runPrims ps s).state = okRun ps s := by
  rw [runPrims_ok h]; rfl

theorem runPrims_state_of_firstFails {ps : List Prim} {n : Nat} {p : Prim} {s : State}
    (h : FirstFails ps n p s) :
    (runPrims ps s).state = failPrim p (okRun (ps.take n) s) := by
  rw [runPrims_fail h]; rfl

/-- Induction over a run: `P` holds of the primitives still to issue and the state they are issued from, each success
keeps it, and the run's end, or the first failure, turns it into `Q`. -/
theorem runPrims_state_induction {P : List Prim → State → Prop} {Q : State → Prop}
    (hnil : ∀ s, P [] s → Q s)
    (hok : ∀ p ps s, P (p :: ps) s → P ps (okPrim p s))
    (hfail : ∀ p ps s, P (p :: ps) s → Q (failPrim p s))
    {ps : List Prim} {s : State} (h : P ps s) : Q (runPrims ps s).state := by
  induction ps generalizing s with
  | nil => exact hnil s h
  | cons p ps ih =>
    rw [runPrims_cons]
    obtain ⟨hr, -⟩ | ⟨hr, -⟩ := runPrim_cases p s <;> simp only [hr]
    · exact ih (hok p ps s h)
    · exact hfail p ps s h

section RunState
variable (ps : List Prim) (s : State)
@[simp] theorem runPrims_state_mode : (runPrims ps s).state.mode = s.mode := by
  obtain ⟨-, h⟩ | ⟨n, p, -, h⟩ := runPrims_cases ps s <;> simp [h, Run.state]
@[simp] theorem runPrims_state_pinmap : (runPrims ps s).state.pinmap = s.pinmap := by
  obtain ⟨-, h⟩ | ⟨n, p, -, h⟩ := runPrims_cases ps s <;> simp [h, Run.state]
@[simp] theorem runPrims_state_phase : (runPrims ps s).state.phase = s.phase := by
  obtain ⟨-, h⟩ | ⟨n, p, -, h⟩ := runPrims_cases ps s <;> simp [h, Run.state]
@[simp] theorem runPrims_state_seq : (runPrims ps s).state.seq = s.seq := by
  obtain ⟨-, h⟩ | ⟨n, p, -, h⟩ := runPrims_cases ps s <;> simp [h, Run.state]
@[simp] theorem runPrims_state_cursor : (runPrims ps s).state.cursor = s.cursor := by
  obtain ⟨-, h⟩ | ⟨n, p, -, h⟩ := runPrims_cases ps s <;> simp [h, Run.state]
@[simp] theorem runPrims_state_drvPins : (runPrims ps s).state.drvPins = s.drvPins := by
  obtain ⟨-, h⟩ | ⟨n, p, -, h⟩ := runPrims_cases ps s <;> simp [h, Run.state]
end RunState

/-- A run that configures no pin leaves CLAIMED (R28). -/
theorem runPrims_state_claimed {ps : List Prim} (s : State) (hps : ps.filterMap claimOf = []) :
    (runPrims ps s).state.claimed = s.claimed := by
  have htake : ∀ n, (ps.take n).filterMap claimOf = [] := fun n =>
    List.filterMap_eq_nil_iff.mpr fun p hp =>
      List.filterMap_eq_nil_iff.mp hps p (List.mem_of_mem_take hp)
  obtain ⟨-, h⟩ | ⟨n, p, -, h⟩ := runPrims_cases ps s <;>
    simp [h, Run.state, okRun_claimed, hps, htake]

/-! ### Everything stays on the driven signals and their pins (R51) -/

/-- The signal on whose pin a primitive is issued. -/
def signalOf (p : Prim) : Option Signal :=
  match p with
  | .cfg sg => some sg
  | .wr sg _ => some sg
  | .hold => none

theorem eventPin_eventOf (s : State) (a : PortAnswer) (p : Prim) :
    eventPin (eventOf s a p) = (signalOf p).map s.pin := by
  cases p <;> rfl

/-- Is every primitive of `ps` on a signal of DRV(`m`)? -/
def onDriven (m : Mode) (ps : List Prim) : Bool :=
  ps.all fun p => (signalOf p).all (· ∈ drv m)

theorem onDriven_cons {m : Mode} {p : Prim} {ps : List Prim} :
    onDriven m (p :: ps) = true ↔
      (∀ sg, signalOf p = some sg → sg ∈ drv m) ∧ onDriven m ps = true := by
  simp [onDriven, Option.all_eq_true]

theorem onDriven_sendBytePrims (m : Mode) (v : Byte) (asData : Bool) :
    onDriven m (sendBytePrims m v asData) = true := by
  cases m <;> rfl

theorem onDriven_initProgram (m : Mode) : onDriven m (initProgram m) = true := by
  cases m <;> rfl

theorem State.pin_mem_drvPins {s : State} {sg : Signal} (h : sg ∈ drv s.mode) : s.pin sg ∈ s.drvPins :=
  List.mem_map_of_mem h

/-- Nothing outside DRV(MODE) and its pins is driven, has been touched, or is claimed. -/
structure Confined (s : State) : Prop where
  levels : ∀ sg, sg ∉ drv s.mode → levelAt s.levels sg = .unknown
  events : ∀ ev ∈ s.trace, ∀ p, eventPin ev = some p → p ∈ s.drvPins
  claims : ∀ p ∈ s.claimed, p ∈ s.drvPins

namespace Confined

variable {s : State} {p : Prim}

/-- The event of a primitive on a driven signal keeps TRACE on the driven pins. -/
theorem events_append (h : Confined s) (hp : ∀ sg, signalOf p = some sg → sg ∈ drv s.mode)
    (a : PortAnswer) :
    ∀ ev ∈ s.trace ++ [eventOf s a p], ∀ q, eventPin ev = some q → q ∈ s.drvPins := by
  intro ev hev q hq
  obtain hev | hev := List.mem_append.mp hev
  · exact h.events ev hev q hq
  · rw [List.mem_singleton.mp hev, eventPin_eventOf] at hq
    obtain ⟨sg, hsg, rfl⟩ := Option.map_eq_some_iff.mp hq
    exact State.pin_mem_drvPins (hp sg hsg)

theorem okPrim (h : Confined s) (hp : ∀ sg, signalOf p = some sg → sg ∈ drv s.mode) :
    Confined (okPrim p s) where
  events := by simpa using h.events_append hp .ok
  levels := by
    cases p with
    | cfg sg => exact h.levels
    | hold => exact h.levels
    | wr sg d =>
      intro sg' hsg'
      rw [okPrim_mode] at hsg'
      have hne : sg' ≠ sg := by rintro rfl; exact hsg' (hp sg' rfl)
      rw [okPrim_levels_wr, if_neg hne, h.levels sg' hsg']
  claims := by
    rw [okPrim_claimed, okPrim_drvPins]
    intro q hq
    obtain hq | hq := List.mem_append.mp hq
    · exact h.claims q hq
    · cases p with
      | cfg sg =>
        obtain rfl : q = s.pin sg := by simpa [claimOf] using hq
        exact State.pin_mem_drvPins (hp sg rfl)
      | wr sg d => cases hq
      | hold => cases hq

theorem failPrim (h : Confined s) (hp : ∀ sg, signalOf p = some sg → sg ∈ drv s.mode) :
    Confined (failPrim p s) where
  events := by simpa using h.events_append hp .failed
  levels := by
    cases p with
    | cfg sg => exact h.levels
    | hold => exact h.levels
    | wr sg d =>
      intro sg' hsg'
      rw [failPrim_mode] at hsg'
      have hne : sg' ≠ sg := by rintro rfl; exact hsg' (hp sg' rfl)
      rw [failPrim_levels_wr, if_neg hne, h.levels sg' hsg']
  claims := by simpa using h.claims

theorem runPrims {ps : List Prim} (h : Confined s) (hps : onDriven s.mode ps = true) :
    Confined (runPrims ps s).state := by
  refine runPrims_state_induction (P := fun ps s => Confined s ∧ onDriven s.mode ps = true)
    (fun s h => h.1) ?_ ?_ ⟨h, hps⟩
  · rintro p ps s ⟨h, hps⟩
    obtain ⟨hp, hrest⟩ := onDriven_cons.mp hps
    exact ⟨h.okPrim hp, by simpa using hrest⟩
  · rintro p ps s ⟨h, hps⟩
    exact h.failPrim (onDriven_cons.mp hps).1

theorem releaseAll (h : Confined s) : Confined (releaseAll s) where
  levels := by
    intro sg hsg
    rw [releaseAll_mode] at hsg
    rw [levelAt_releaseAll, h.levels sg hsg, ite_self]
  events := by
    rw [releaseAll_trace, releaseAll_drvPins]
    intro ev hev q hq
    obtain hev | hev := List.mem_append.mp hev
    · exact h.events ev hev q hq
    · obtain ⟨r, hr, rfl⟩ := List.mem_map.mp hev
      cases hq
      exact h.claims _ hr
  claims := by simp

end Confined

/-! ### Only pins that are claimed are driven (R60, R132) -/

/-- Does `ps` write only signals that are in `held` or that it has configured before? -/
def claimsBeforeWrites (held : List Signal) (ps : List Prim) : Bool :=
  match ps with
  | [] => true
  | .cfg sg :: rest => claimsBeforeWrites (sg :: held) rest
  | .wr sg _ :: rest => held.contains sg && claimsBeforeWrites held rest
  | .hold :: rest => claimsBeforeWrites held rest

theorem claimsBeforeWrites_initProgram (m : Mode) : claimsBeforeWrites [] (initProgram m) = true := by
  cases m <;> rfl

/-- A signal whose level the block knows is on a pin it holds. -/
def KnownAreClaimed (s : State) : Prop :=
  ∀ sg, levelAt s.levels sg ≠ .unknown → s.pin sg ∈ s.claimed

/-- A run that claims before it writes knows levels of claimed pins only, however it ends. -/
theorem knownAreClaimed_runPrims {ps : List Prim} {s : State} (h : KnownAreClaimed s)
    (hps : claimsBeforeWrites [] ps = true) : KnownAreClaimed (runPrims ps s).state := by
  refine runPrims_state_induction
    (P := fun ps s => KnownAreClaimed s ∧ ∃ held, claimsBeforeWrites held ps = true ∧
      ∀ sg ∈ held, s.pin sg ∈ s.claimed)
    (fun s h => h.1) ?_ ?_ ⟨h, [], hps, by simp⟩
  · rintro p ps s ⟨h, held, hps, hheld⟩
    cases p with
    | cfg sg =>
      refine ⟨fun sg' hk => ?_, sg :: held, hps, fun sg' hsg' => ?_⟩ <;>
        rw [okPrim_claimed, okPrim_pin]
      · exact List.mem_append_left _ (h sg' hk)
      · obtain rfl | hsg' := List.mem_cons.mp hsg'
        · exact List.mem_append_right _ (by simp [claimOf])
        · exact List.mem_append_left _ (hheld sg' hsg')
    | wr sg d =>
      simp only [claimsBeforeWrites, Bool.and_eq_true, List.contains_iff_mem] at hps
      obtain ⟨hsg, hrest⟩ := hps
      refine ⟨fun sg' hk => ?_, held, hrest, hheld⟩
      rw [okPrim_levels_wr] at hk
      by_cases hs : sg' = sg
      · subst hs; exact hheld sg' hsg
      · exact h sg' (by simpa [hs] using hk)
    | hold => exact ⟨h, held, hps, hheld⟩
  · rintro p ps s ⟨h, -⟩
    cases p with
    | cfg sg => exact h
    | hold => exact h
    | wr sg d =>
      intro sg' hk
      rw [failPrim_levels_wr] at hk
      by_cases hs : sg' = sg
      · simp [hs] at hk
      · exact h sg' (by simpa [hs] using hk)

/-! ### Which latches are certain (R31, R109, D22) -/

theorem isLatch_of_known {s : State} (h : s.levels.e ≠ .unknown) :
    ∀ l ∈ latchOnWrite s .e .low, isLatch l = true := by
  cases hE : s.levels.e with
  | low => simp [latchOnWrite_of_low hE]
  | high => simp [latchOnWrite_of_high hE, isLatch]
  | unknown => exact absurd hE h

/-- A write of E that is `ok` makes its level known, and no other primitive forgets it. -/
theorem okPrim_e_known {p : Prim} {s : State} (h : s.levels.e ≠ .unknown ∨ ∃ d, p = .wr .e d) :
    (okPrim p s).levels.e ≠ .unknown := by
  change levelAt (okPrim p s).levels .e ≠ .unknown
  obtain h | ⟨d, rfl⟩ := h
  · cases p with
    | cfg sg => exact h
    | hold => exact h
    | wr sg d =>
      rw [okPrim_levels_wr]
      split
      · cases d <;> simp
      · exact h
  · rw [okPrim_levels_wr, if_pos rfl]
    cases d <;> simp

/-- Is the first write of E, if there is one, a raise? -/
def raisesFirst (ps : List Prim) : Bool :=
  match ps with
  | [] => true
  | p :: rest => if writesE p then p == .wr .e .high else raisesFirst rest

theorem raisesFirst_sendBytePrims (m : Mode) (v : Byte) (asData : Bool) :
    raisesFirst (sendBytePrims m v asData) = true := by
  cases m <;> rfl

/-- The first primitive of such a list is no fall of E; after it E is known or still raised first. -/
theorem raisesFirst_cons {p : Prim} {ps : List Prim} (h : raisesFirst (p :: ps) = true) :
    p ≠ .wr .e .low ∧ ((∃ d, p = .wr .e d) ∨ raisesFirst ps = true) := by
  rw [raisesFirst] at h
  split at h
  next hw =>
    obtain rfl : p = .wr .e .high := eq_of_beq h
    exact ⟨nofun, .inl ⟨_, rfl⟩⟩
  next hw => exact ⟨by rintro rfl; exact hw rfl, .inr h⟩

/-- A run that raises E before it lowers it makes only certain latches, from any level of E (R109). -/
theorem certainLatches_runPrims {ps : List Prim} {s : State} (hps : raisesFirst ps = true) :
    ∃ ls, (runPrims ps s).state.latch = s.latch ++ ls ∧ ∀ l ∈ ls, isLatch l = true := by
  refine runPrims_state_induction
    (P := fun ps u => (∃ ls, u.latch = s.latch ++ ls ∧ ∀ l ∈ ls, isLatch l = true) ∧
      (u.levels.e ≠ .unknown ∨ raisesFirst ps = true))
    (Q := fun u => ∃ ls, u.latch = s.latch ++ ls ∧ ∀ l ∈ ls, isLatch l = true)
    (fun u h => h.1) ?_ ?_ ⟨⟨[], by simp, by simp⟩, .inr hps⟩
  · rintro p ps u ⟨⟨ls, hls, hcertain⟩, hE⟩
    constructor
    · by_cases hp : p = .wr .e .low
      · subst hp
        have hknown : u.levels.e ≠ .unknown :=
          hE.resolve_right fun hr => (raisesFirst_cons hr).1 rfl
        refine ⟨ls ++ latchOnWrite u .e .low, ?_, fun l hl => ?_⟩
        · rw [okPrim_latch_lowerE, hls, List.append_assoc]
        · exact (List.mem_append.mp hl).elim (hcertain l) (isLatch_of_known hknown l)
      · exact ⟨ls, by rw [okPrim_latch_of_ne u hp, hls], hcertain⟩
    · obtain hE | hr := hE
      · exact .inl (okPrim_e_known (.inl hE))
      · exact (raisesFirst_cons hr).2.imp_left fun hw => okPrim_e_known (.inr hw)
  · rintro p ps u ⟨hl, -⟩
    simpa using hl

/-- Certain latches after a list whose first alone may be uncertain. -/
theorem certain_tail_append {ls ls' : List Latch} (h : ∀ l ∈ ls.tail, isLatch l = true)
    (h' : ∀ l ∈ ls', isLatch l = true) : ∀ l ∈ (ls ++ ls').tail, isLatch l = true := by
  cases ls with
  | nil => exact fun l hl => h' l (List.mem_of_mem_tail hl)
  | cons a rest => exact fun l hl => (List.mem_append.mp hl).elim (h l) (h' l)

/-- The only edge from an unknown E is the first latch event, which alone can be a `MaybeLatch`. -/
structure FirstEdge (s : State) : Prop where
  unknown : s.levels.e = .unknown → s.latch = []
  certain : ∀ l ∈ s.latch.tail, isLatch l = true

theorem FirstEdge.okPrim {p : Prim} {s : State} (h : FirstEdge s) : FirstEdge (okPrim p s) := by
  by_cases hp : p = .wr .e .low
  · subst hp
    refine ⟨fun hE => absurd hE (okPrim_e_known (.inr ⟨_, rfl⟩)), ?_⟩
    rw [okPrim_latch_lowerE]
    by_cases hE : s.levels.e = .unknown
    · simp [h.unknown hE, latchOnWrite_of_unknown hE]
    · exact certain_tail_append h.certain (isLatch_of_known hE)
  · refine ⟨fun hE => ?_, ?_⟩ <;> rw [okPrim_latch_of_ne s hp]
    · by_contra hne
      exact okPrim_e_known (.inl fun hs => hne (h.unknown hs)) hE
    · exact h.certain

theorem FirstEdge.runPrims {ps : List Prim} {s : State} (h : FirstEdge s) :
    ∀ l ∈ (runPrims ps s).state.latch.tail, isLatch l = true :=
  runPrims_state_induction (P := fun _ s => FirstEdge s)
    (Q := fun s => ∀ l ∈ s.latch.tail, isLatch l = true)
    (fun _ h => h.certain) (fun _ _ _ h => h.okPrim) (fun p _ s h => by simpa using h.certain) h

/-! ### The invariant of a block between requests -/

theorem inv_construct (m : Mode) (pm : PinMap) (g : Geometry) : Inv (State.construct m pm g) where
  seqIdle := rfl
  readyHolds hp := by cases hp
  elseNothing _ := ⟨rfl, rfl⟩
  undriven sg _ := levelAt_allUnknown sg
  fresh _ := ⟨rfl, rfl, rfl⟩
  onDrvPins _ hev := by cases hev
  latchesAfterFirst _ hl := by cases hl

/-- Settles O54: reset is a construction too. -/
theorem newBlockIsSound : Obligations.NewBlockIsSound :=
  ⟨inv_construct, inv_construct _ _ _⟩

/-- The invariant says nothing of RESULT. -/
theorem inv_setResult {s : State} (h : Inv s) (r : Result) : Inv (s.setResult r) :=
  { h with }

/-- The invariant says nothing of the queue. -/
theorem inv_setRequests {s : State} (h : Inv s) (ws : List ReqWord) : Inv (s.setRequests ws) :=
  { h with }

theorem Confined.of_inv {s : State} (h : Inv s) : Confined s where
  levels := h.undriven
  events := h.onDrvPins
  claims := by
    by_cases hp : s.phase = .ready
    · rw [(h.readyHolds hp).1]; exact fun _ hq => hq
    · rw [(h.elseNothing hp).1]; nofun

/-- What the invariant asks of a READY block. -/
theorem inv_of_ready {s : State} (hseq : s.seq = .idle) (hphase : s.phase = .ready)
    (hclaimed : s.claimed = s.drvPins) (hvalid : validPinMap s.pinmap s.mode = true)
    (hcursor : s.cursor.isSome = true) (hconf : Confined s)
    (hlatch : ∀ l ∈ s.latch.tail, isLatch l = true) : Inv s where
  seqIdle := hseq
  readyHolds _ := ⟨hclaimed, hvalid, hcursor⟩
  elseNothing hp := absurd hphase hp
  undriven := hconf.levels
  fresh hp := by rw [hphase] at hp; cases hp
  onDrvPins := hconf.events
  latchesAfterFirst := hlatch

/-- What the invariant asks of a RELEASED block. -/
theorem inv_of_released {s : State} (hseq : s.seq = .idle) (hphase : s.phase = .released)
    (hclaimed : s.claimed = []) (hlevels : s.levels = Levels.allUnknown) (hconf : Confined s)
    (hlatch : ∀ l ∈ s.latch.tail, isLatch l = true) : Inv s where
  seqIdle := hseq
  readyHolds hp := by rw [hphase] at hp; cases hp
  elseNothing _ := ⟨hclaimed, hlevels⟩
  undriven := hconf.levels
  fresh hp := by rw [hphase] at hp; cases hp
  onDrvPins := hconf.events
  latchesAfterFirst := hlatch

theorem claimOf_initProgram (m : Mode) : (initProgram m).filterMap claimOf = drv m := by
  cases m <;> rfl

/-- What a SEND of a READY block leaves: the state its run ends in, with a RESULT. -/
theorem sendRequest_of_ready (v : Byte) (asData : Bool) {s : State} (hp : s.phase = .ready) :
    ∃ r, sendRequest v asData s = (runPrims (sendBytePrims s.mode v asData) s).state.setResult r := by
  obtain h | ⟨n, p, h⟩ := allOk_or_firstFails (sendBytePrims s.mode v asData) s
  · exact ⟨_, by rw [sendRequest_of_allOk hp h, runPrims_state_of_allOk h]⟩
  · exact ⟨_, by rw [sendRequest_of_firstFails hp h, runPrims_state_of_firstFails h]⟩

/-- A SEND keeps the invariant: it claims nothing, stays on the driven signals, and raises E before it lowers it. -/
theorem inv_sendRequest {s : State} (h : Inv s) (v : Byte) (asData : Bool) :
    Inv (sendRequest v asData s) := by
  by_cases hp : s.phase = .ready
  · obtain ⟨r, hr⟩ := sendRequest_of_ready v asData hp
    obtain ⟨hclaimed, hvalid, hcursor⟩ := h.readyHolds hp
    obtain ⟨ls, hls, hcertain⟩ :=
      certainLatches_runPrims (s := s) (raisesFirst_sendBytePrims s.mode v asData)
    rw [hr]
    refine inv_setResult (inv_of_ready ?_ ?_ ?_ ?_ ?_ ?_ ?_) r
    · simpa using h.seqIdle
    · simpa using hp
    · simpa [runPrims_state_claimed s claimOf_sendBytePrims] using hclaimed
    · simpa using hvalid
    · simpa using hcursor
    · exact (Confined.of_inv h).runPrims (onDriven_sendBytePrims s.mode v asData)
    · rw [hls]
      exact certain_tail_append h.latchesAfterFirst hcertain
  · rw [sendRequest_of_notReady _ _ hp]
    exact inv_setResult h _

/-- TEARDOWN keeps the invariant: a READY block holds every pin whose level it can know. -/
theorem inv_teardownRequest {s : State} (h : Inv s) : Inv (teardownRequest s) := by
  obtain ⟨hp, hr⟩ | ⟨hp, hr⟩ := teardownRequest_cases s <;>
    rw [hr] <;> refine inv_setResult (inv_of_released ?_ rfl ?_ ?_ ?_ ?_) _
  · simpa using h.seqIdle
  · simp
  · refine releaseAll_forgets fun sg hk => ?_
    have hsg : sg ∈ drv s.mode := not_imp_comm.mp (h.undriven sg) hk
    exact ⟨hsg, (h.readyHolds hp).1 ▸ State.pin_mem_drvPins hsg⟩
  · exact { (Confined.of_inv h).releaseAll with }
  · simpa using h.latchesAfterFirst
  · exact h.seqIdle
  · exact (h.elseNothing hp).1
  · exact (h.elseNothing hp).2
  · exact { Confined.of_inv h with }
  · exact h.latchesAfterFirst

/-- Completing INIT with every driven pin claimed meets the invariant. -/
theorem inv_initDone {s : State} (hclaimed : s.claimed = s.drvPins)
    (hvalid : validPinMap s.pinmap s.mode = true) (hconf : Confined s)
    (hlatch : ∀ l ∈ s.latch.tail, isLatch l = true) :
    Inv ((((s.setCursor ⟨0, 0, true⟩).setPhase .ready).setSeq .idle).setResult .ok) :=
  inv_of_ready rfl rfl hclaimed hvalid rfl { hconf with } hlatch

/-- An abort from any state its program can leave meets the invariant. -/
theorem inv_initAbort {s : State} (hconf : Confined s) (hknown : KnownAreClaimed s)
    (hlatch : ∀ l ∈ s.latch.tail, isLatch l = true) (k : ErrKind) (j : Nat) :
    Inv (initAbort k j s) := by
  have hforget : (releaseAll s).levels = Levels.allUnknown :=
    releaseAll_forgets fun sg hk => ⟨not_imp_comm.mp (hconf.levels sg) hk, hknown sg hk⟩
  exact inv_of_released rfl rfl rfl hforget { hconf.releaseAll with } (by simpa using hlatch)

/-- INIT keeps the invariant: READY it holds exactly the pins it configured, aborted it has released every pin whose
level it knew. -/
theorem inv_initRequest {s : State} (h : Inv s) : Inv (initRequest cmdvTable s) := by
  obtain ⟨-, hr⟩ | ⟨-, -, hr⟩ | ⟨hp, hv, hok, hr⟩ | ⟨hp, hv, n, p, hfail, hr⟩ := initRequest_cases s
  · rw [hr]; exact inv_setResult h _
  · rw [hr]; exact inv_setResult h _
  all_goals
    obtain ⟨-, hlatch, -⟩ := h.fresh hp
    obtain ⟨hclaimed, hlevels⟩ := h.elseNothing (by simp [hp])
    have hconf := (Confined.of_inv h).runPrims (onDriven_initProgram s.mode)
    have hedge : FirstEdge s := ⟨fun _ => hlatch, h.latchesAfterFirst⟩
    have hlatches := hedge.runPrims (ps := initProgram s.mode)
  · rw [runPrims_state_of_allOk hok] at hconf hlatches
    rw [hr]
    refine inv_initDone ?_ ?_ hconf hlatches
    · simp [okRun_claimed, claimOf_initProgram, hclaimed, State.drvPins]
    · simpa using hv
  · have hknown : KnownAreClaimed (runPrims (initProgram s.mode) s).state := by
      refine knownAreClaimed_runPrims (fun sg hk => ?_) (claimsBeforeWrites_initProgram s.mode)
      simp [hlevels] at hk
    rw [runPrims_state_of_firstFails hfail] at hconf hlatches hknown
    rw [hr]
    exact inv_initAbort hconf hknown hlatches _ _

theorem inv_exec {i : Instr} {s t : State} (h : Inv s) (he : exec i s = .next t) : Inv t := by
  obtain ⟨-, hi⟩ | ⟨-, hi⟩ | ⟨v, asData, -, hi⟩ := exec_cases i s <;> cases hi.symm.trans he
  · exact inv_initRequest h
  · exact inv_teardownRequest h
  · exact inv_sendRequest h v asData

/-- Settles O53: each of the three kinds of request keeps the invariant, which does not read the queue. -/
theorem stepKeepsTheBlockSound : Obligations.StepKeepsTheBlockSound := by
  intro s t h hs
  obtain rfl | ⟨rest, rfl⟩ | ⟨i, rest, he⟩ := step_cases hs
  · exact h
  · exact inv_setResult (inv_setRequests h rest) _
  · exact inv_exec (inv_setRequests h rest) he

end Sys2Proof.Machine

namespace Sys2Proof.Machine

open Sys2Proof.Safety

/-! ### No pin is claimed twice (R60) -/

/-- The pins of the `PortCfg` events of a TRACE. -/
def cfgPins (evs : List Event) : List (Option PinId) := (evs.filter isCfg).map eventPin

@[simp] theorem cfgPins_append (evs evs' : List Event) :
    cfgPins (evs ++ evs') = cfgPins evs ++ cfgPins evs' := by
  simp [cfgPins]

@[simp] theorem cfgPins_rel (ps : List PinId) : cfgPins (ps.map Event.rel) = [] := by
  simp [cfgPins, isCfg, List.filter_eq_nil_iff]

theorem cfgPins_eventOf (s : State) (a : PortAnswer) (p : Prim) :
    cfgPins [eventOf s a p] = ([p].filterMap claimOf).map fun sg => some (s.pin sg) := by
  cases p <;> rfl

/-- A run configures, in order, some first part of what its program configures. -/
theorem cfgPins_runPrims (ps : List Prim) (s : State) :
    ∃ sgs : List Signal, sgs.Sublist (ps.filterMap claimOf) ∧
      cfgPins (runPrims ps s).state.trace =
        cfgPins s.trace ++ sgs.map fun sg => some (s.pin sg) := by
  induction ps generalizing s with
  | nil => exact ⟨[], .slnil, by simp [runPrims, Run.state]⟩
  | cons p ps ih =>
    have hsplit : (p :: ps).filterMap claimOf = [p].filterMap claimOf ++ ps.filterMap claimOf :=
      List.filterMap_append (l := [p])
    rw [runPrims_cons, hsplit]
    obtain ⟨hr, -⟩ | ⟨hr, -⟩ := runPrim_cases p s <;> simp only [hr]
    · obtain ⟨sgs, hsub, hcfg⟩ := ih (okPrim p s)
      refine ⟨[p].filterMap claimOf ++ sgs, hsub.append_left _, ?_⟩
      simp only [hcfg, okPrim_trace, okPrim_pin, cfgPins_append, cfgPins_eventOf, List.map_append,
        List.append_assoc]
    · refine ⟨[p].filterMap claimOf, List.sublist_append_left _ _, ?_⟩
      simp only [Run.state, failPrim_trace, cfgPins_append, cfgPins_eventOf]

/-- A valid PINMAP gives the driven signals distinct pins (R23). -/
theorem drv_pins_nodup {s : State} (hv : validPinMap s.pinmap s.mode = true) :
    ((drv s.mode).map fun sg => some (s.pin sg)).Nodup := by
  obtain ⟨hsome, hnodup⟩ := validPinMap_iff.mp hv
  have hpin : (drv s.mode).map (fun sg => some (s.pin sg)) = (drv s.mode).map (pinEntry s.pinmap) := by
    refine List.map_congr_left fun sg hsg => ?_
    obtain ⟨p, hp⟩ := Option.isSome_iff_exists.mp (hsome sg hsg)
    simp [State.pin, hp]
  rwa [hpin]

theorem cfgPins_sendRequest (v : Byte) (asData : Bool) (s : State) :
    cfgPins (sendRequest v asData s).trace = cfgPins s.trace := by
  by_cases hp : s.phase = .ready
  · obtain ⟨r, hr⟩ := sendRequest_of_ready v asData hp
    obtain ⟨sgs, hsub, hcfg⟩ := cfgPins_runPrims (sendBytePrims s.mode v asData) s
    rw [claimOf_sendBytePrims, List.sublist_nil] at hsub
    rw [hr, State.setResult_trace, hcfg, hsub, List.map_nil, List.append_nil]
  · rw [sendRequest_of_notReady _ _ hp, State.setResult_trace]

theorem cfgPins_teardownRequest (s : State) : cfgPins (teardownRequest s).trace = cfgPins s.trace := by
  obtain ⟨-, hr⟩ | ⟨-, hr⟩ := teardownRequest_cases s <;> simp [hr]

/-- INIT of a block that has issued nothing configures driven signals in order, each once. -/
theorem cfgPins_initRequest {s : State} (h : Inv s) (hs : (cfgPins s.trace).Nodup) :
    (cfgPins (initRequest cmdvTable s).trace).Nodup := by
  obtain ⟨sgs, hsub, hcfg⟩ := cfgPins_runPrims (initProgram s.mode) s
  rw [claimOf_initProgram] at hsub
  obtain ⟨-, hr⟩ | ⟨-, -, hr⟩ | ⟨hp, hv, hok, hr⟩ | ⟨hp, hv, n, p, hfail, hr⟩ := initRequest_cases s <;>
    rw [hr]
  · exact hs
  · exact hs
  · have hnew := (drv_pins_nodup hv).sublist (hsub.map _)
    rw [runPrims_state_of_allOk hok, (h.fresh hp).1] at hcfg
    rw [State.setResult_trace, State.setSeq_trace, State.setPhase_trace, State.setCursor_trace, hcfg]
    exact hnew
  · have hnew := (drv_pins_nodup hv).sublist (hsub.map _)
    rw [runPrims_state_of_firstFails hfail, (h.fresh hp).1] at hcfg
    rw [initAbort_trace, cfgPins_append, cfgPins_rel, List.append_nil, hcfg]
    exact hnew

/-- Settles O48: only INIT configures pins, and it does so from an empty TRACE and under a valid PINMAP. -/
theorem pinsAreClaimedAtMostOnce : Obligations.PinsAreClaimedAtMostOnce := by
  intro s t h hs hstep
  obtain rfl | ⟨rest, rfl⟩ | ⟨i, rest, he⟩ := step_cases hstep
  · exact hs
  · exact hs
  · change (cfgPins (s.setRequests rest).trace).Nodup at hs
    change (cfgPins t.trace).Nodup
    obtain ⟨-, hi⟩ | ⟨-, hi⟩ | ⟨v, asData, -, hi⟩ := exec_cases i (s.setRequests rest) <;>
      cases hi.symm.trans he
    · exact cfgPins_initRequest (inv_setRequests h rest) hs
    · rwa [cfgPins_teardownRequest]
    · rwa [cfgPins_sendRequest]

/-! ### GEOMETRY is read by nothing (R24, D19) -/

/-- The same block constructed with another GEOMETRY. -/
def State.withGeometry (s : State) (g : Geometry) : State := { s with geometry := g }

section WithGeometry
variable (s : State) (g : Geometry)

@[simp] theorem State.withGeometry_phase : (s.withGeometry g).phase = s.phase := rfl

theorem okRun_withGeometry (ps : List Prim) :
    okRun ps (s.withGeometry g) = (okRun ps s).withGeometry g := by
  induction ps generalizing s with
  | nil => rfl
  | cons p ps ih =>
    have hp : okPrim p (s.withGeometry g) = (okPrim p s).withGeometry g := by cases p <;> rfl
    rw [okRun_cons, okRun_cons, hp, ih]

theorem failPrim_withGeometry (p : Prim) :
    failPrim p (s.withGeometry g) = (failPrim p s).withGeometry g := by
  cases p <;> rfl

theorem forgetPin_withGeometry (p : PinId) (sgs : List Signal) (lv : Levels) :
    forgetPin (s.withGeometry g) p sgs lv = forgetPin s p sgs lv := by
  induction sgs generalizing lv with
  | nil => rfl
  | cons sg sgs ih => rw [forgetPin, forgetPin, ih]; rfl

theorem portRel_withGeometry (p : PinId) :
    portRel p (s.withGeometry g) = (portRel p s).withGeometry g := by
  rw [portRel, forgetPin_withGeometry]
  rfl

theorem releasePins_withGeometry (ps : List PinId) :
    releasePins ps (s.withGeometry g) = (releasePins ps s).withGeometry g := by
  induction ps generalizing s with
  | nil => rfl
  | cons p ps ih => rw [releasePins, releasePins, portRel_withGeometry, ih]

theorem releaseAll_withGeometry : releaseAll (s.withGeometry g) = (releaseAll s).withGeometry g :=
  congrArg (State.setClaimed · []) (releasePins_withGeometry s g s.claimed)

theorem initAbort_withGeometry (k : ErrKind) (j : Nat) :
    initAbort k j (s.withGeometry g) = (initAbort k j s).withGeometry g := by
  rw [initAbort, releaseAll_withGeometry]
  rfl

theorem sendRequest_withGeometry (v : Byte) (asData : Bool) :
    sendRequest v asData (s.withGeometry g) = (sendRequest v asData s).withGeometry g := by
  obtain ⟨hp, hr⟩ | ⟨hp, h, hr⟩ | ⟨hp, n, p, h, hr⟩ := sendRequest_cases v asData s <;> rw [hr]
  · exact sendRequest_of_notReady v asData (s := s.withGeometry g) hp
  · rw [sendRequest_of_allOk (s := s.withGeometry g) hp h, okRun_withGeometry]
    rfl
  · rw [sendRequest_of_firstFails (s := s.withGeometry g) hp h, okRun_withGeometry,
      failPrim_withGeometry]
    rfl

theorem teardownRequest_withGeometry :
    teardownRequest (s.withGeometry g) = (teardownRequest s).withGeometry g := by
  by_cases hp : s.phase = .ready
  · simp only [teardownRequest, State.withGeometry_phase, hp, if_true, releaseAll_withGeometry]
    rfl
  · simp only [teardownRequest, State.withGeometry_phase, hp, if_false]
    rfl

theorem initRequest_withGeometry :
    initRequest cmdvTable (s.withGeometry g) = (initRequest cmdvTable s).withGeometry g := by
  obtain ⟨hp, hr⟩ | ⟨hp, hv, hr⟩ | ⟨hp, hv, h, hr⟩ | ⟨hp, hv, n, p, h, hr⟩ := initRequest_cases s <;>
    rw [hr]
  · exact initRequest_of_notUninit _ (s := s.withGeometry g) hp
  · exact initRequest_of_invalid _ (s := s.withGeometry g) hp hv
  · rw [initRequest_of_allOk (s := s.withGeometry g) hp hv h, okRun_withGeometry]
    rfl
  · rw [initRequest_of_firstFails (s := s.withGeometry g) hp hv h, okRun_withGeometry,
      failPrim_withGeometry, initAbort_withGeometry]
    rfl

end WithGeometry

/-- Settles O51: each kind of request commutes with a change of GEOMETRY. -/
theorem geometryIsReadByNoRequest : Obligations.GeometryIsReadByNoRequest := by
  intro i s t g h
  change exec i (s.withGeometry g) = .next (t.withGeometry g)
  obtain ⟨rfl, he⟩ | ⟨rfl, he⟩ | ⟨v, asData, hb, he⟩ := exec_cases i s <;> cases he.symm.trans h
  · exact congrArg _ (initRequest_withGeometry s g)
  · exact congrArg _ (teardownRequest_withGeometry s g)
  · rw [exec_of_carriedByte _ hb, sendRequest_withGeometry]

end Sys2Proof.Machine

namespace Sys2Proof.Machine

open Sys2Proof.Safety

/-! ### The nibbles of a byte (R54, R78) -/

theorem highNibble_eq_shift (v : Byte) : highNibble v = (v >>> 4).setWidth 4 := by
  rw [BitVec.setWidth_ushiftRight_eq_extractLsb]
  rfl

theorem lowNibble_eq_mask (v : Byte) : lowNibble v = (v &&& 0xF#8).setWidth 4 := by
  have hmask : (0xF#8).setWidth 4 = BitVec.allOnes 4 := by decide
  rw [BitVec.setWidth_and, hmask, BitVec.and_allOnes, BitVec.setWidth_eq_extractLsb' (by decide)]
  rfl

@[simp] theorem getElem_highNibble (v : Byte) {i : Nat} (h : i < 4) :
    (highNibble v)[i] = v.getLsbD (4 + i) := by
  simp [highNibble]

@[simp] theorem getElem_lowNibble (v : Byte) {i : Nat} (h : i < 4) :
    (lowNibble v)[i] = v.getLsbD i := by
  simp [lowNibble]

/-- A byte is its two nibbles, the high one four places up. -/
theorem byte_eq_nibbles (v : Byte) :
    v = (highNibble v).setWidth 8 <<< 4 ||| (lowNibble v).setWidth 8 := by
  refine BitVec.eq_of_getElem_eq fun i hi => ?_
  by_cases h : i < 4
  · simp [h, hi]
  · have hplace : 4 + (i - 4) = i := by omega
    have hhigh : i - 4 < 4 := by omega
    have hlow : (lowNibble v).getLsbD i = false := BitVec.getLsbD_of_ge _ _ (by omega)
    simp [h, hi, hplace, hhigh, hlow]

/-- Settles O8: the two definitions of R78, and the byte put together again. -/
theorem nibbleSplit : Obligations.NibbleSplit := fun v =>
  ⟨highNibble_eq_shift v, rfl, lowNibble_eq_mask v, rfl, byte_eq_nibbles v⟩

/-! ### One byte that goes through (R103, R109, R110) -/

/-- An `ok` primitive on another signal leaves a signal's level. -/
theorem okPrim_levels_of_ne {p : Prim} {sg : Signal} (s : State) (h : signalOf p ≠ some sg) :
    levelAt (okPrim p s).levels sg = levelAt s.levels sg := by
  cases p with
  | cfg sg' => rfl
  | hold => rfl
  | wr sg' d => rw [okPrim_levels_wr, if_neg fun he => h (congrArg some he.symm)]

/-- A run that does not touch a signal leaves its level. -/
theorem okRun_levels_of_untouched {ps : List Prim} {sg : Signal} (s : State)
    (h : ∀ p ∈ ps, signalOf p ≠ some sg) : levelAt (okRun ps s).levels sg = levelAt s.levels sg := by
  induction ps generalizing s with
  | nil => rfl
  | cons p ps ih =>
    obtain ⟨hp, hps⟩ := List.forall_mem_cons.mp h
    rw [okRun_cons, ih _ hps, okPrim_levels_of_ne s hp]

/-- The levels a byte transfer leaves are the ones R110 writes out. -/
theorem okRun_sendBytePrims_levels (m : Mode) (v : Byte) (asData : Bool) (s : State) :
    (okRun (sendBytePrims m v asData) s).levels = sentLevels m v asData s.levels := by
  cases m <;>
    simp [sendBytePrims, putBytePrims, putNibblePrims, strobePrims, okPrim, setLevelAt, sentLevels]

/-- Eight data lines put and strobed latch the byte (R102, R100). -/
theorem okRun_putByte_strobe_latch (v : Byte) {s : State} (hm : s.mode = .eightBit) :
    (okRun (putBytePrims v ++ strobePrims) s).latch =
      s.latch ++ [.latch s.levels.rs (byteBus v)] := by
  rw [okRun_append, okRun_strobePrims_latch, okRun_latch_of_noEdge s (by simp [putBytePrims])]
  simp [putBytePrims, okPrim, setLevelAt, hm, busOf, byteBus]

/-- Four data lines put and strobed latch the nibble (R101, R100). -/
theorem okRun_putNibble_strobe_latch (n : Nibble) {s : State} (hm : s.mode = .fourBit) :
    (okRun (putNibblePrims n ++ strobePrims) s).latch =
      s.latch ++ [.latch s.levels.rs (nibbleBus n)] := by
  rw [okRun_append, okRun_strobePrims_latch, okRun_latch_of_noEdge s (by simp [putNibblePrims])]
  simp [putNibblePrims, okPrim, setLevelAt, hm, busOf, nibbleBus]

/-- A byte transfer latches what R109 writes out, whatever the levels were before. -/
theorem okRun_sendBytePrims_latch (v : Byte) (asData : Bool) (s : State) :
    (okRun (sendBytePrims s.mode v asData) s).latch = s.latch ++ sentLatches s.mode v asData := by
  have hrs : (okPrim (.wr .rs (driveOf asData)) s).levels.rs = bitLevel asData :=
    driveLevel_driveOf asData
  have hlatch : (okPrim (.wr .rs (driveOf asData)) s).latch = s.latch := okPrim_latch_of_ne s nofun
  cases hm : s.mode with
  | eightBit =>
    simp [sendBytePrims, okRun_putByte_strobe_latch, hm, hrs, hlatch, sentLatches]
  | fourBit =>
    have hkept (u : State) :
        (okRun (putNibblePrims (highNibble v) ++ strobePrims) u).levels.rs = u.levels.rs :=
      okRun_levels_of_untouched (sg := .rs) u (by simp [putNibblePrims, strobePrims, signalOf])
    have hprims : sendBytePrims .fourBit v asData = .wr .rs (driveOf asData) ::
        ((putNibblePrims (highNibble v) ++ strobePrims) ++
          (putNibblePrims (lowNibble v) ++ strobePrims)) := rfl
    rw [hprims, okRun_cons, okRun_append, okRun_putNibble_strobe_latch _ (by simpa using hm),
      okRun_putNibble_strobe_latch _ (by simpa using hm), hkept, hrs, hlatch,
      highNibble_eq_shift, lowNibble_eq_mask, List.append_assoc]
    rfl

/-! ### The bus read as a number (R80) -/

theorem levelsValue_bitLevel (acc : Nat) (b : Bool) (ls : List Level) :
    levelsValue acc (bitLevel b :: ls) = levelsValue (2 * acc + b.toNat) ls := by
  cases b <;> rfl

/-- The low `n` bits of `x`, most significant first, read as `x` modulo `2 ^ n`. -/
theorem levelsValue_bits (acc x n : Nat) :
    levelsValue acc ((List.range n).reverse.map fun i => bitLevel (x.testBit i)) =
      some (acc * 2 ^ n + x % 2 ^ n) := by
  induction n generalizing acc with
  | zero => simp [levelsValue, Nat.mod_one]
  | succ n ih =>
    rw [List.range_succ, List.reverse_concat, List.map_cons, levelsValue_bitLevel, ih,
      Nat.toNat_testBit, Nat.mod_pow_succ]
    congr 1
    ring

/-- An 8-bit bus word reads as the byte it carries. -/
theorem busValue_byteBus (v : Byte) : busValue (byteBus v) = some v.toNat := by
  calc busValue (byteBus v)
      = levelsValue 0 ((List.range 8).reverse.map fun i => bitLevel (v.toNat.testBit i)) := rfl
    _ = some v.toNat := by rw [levelsValue_bits, Nat.zero_mul, Nat.zero_add, Nat.mod_eq_of_lt v.isLt]

/-- Settles O21: in EightBit the one latch event of a byte transfer has the byte on its bus. -/
theorem eightBitLinesCarryTheByte : Obligations.EightBitLinesCarryTheByte := by
  intro i v asData s hb hp hm hok
  have hlevels := okRun_sendBytePrims_levels s.mode v asData s
  have hlatch := okRun_sendBytePrims_latch v asData s
  rw [hm] at hlevels hlatch hok
  have hexec : exec i s = .next ((okRun (sendBytePrims .eightBit v asData) s).setResult .ok) := by
    rw [exec_of_carriedByte s hb, sendRequest_of_allOk hp (by rwa [hm]), hm]
  refine ⟨_, byteBus v, bitLevel asData, hexec, hlatch, ?_, busValue_byteBus v, ?_⟩ <;>
    rw [State.setResult_levels, hlevels]
  · rfl
  · exact ⟨rfl, rfl, rfl, rfl, rfl, rfl, rfl, rfl⟩

/-! ### What a request leaves alone outside DRV(MODE) (R51, R107) -/

/-- From `s` to `t` every primitive issued is on a pin of DRV(MODE), no other pin is newly claimed, and no signal outside
DRV(MODE) has changed its level. -/
structure DrivenOnly (s t : State) : Prop where
  mode : t.mode = s.mode
  pins : t.drvPins = s.drvPins
  events : ∃ evs, t.trace = s.trace ++ evs ∧ ∀ ev ∈ evs, ∀ p, eventPin ev = some p → p ∈ s.drvPins
  levels : ∀ sg, sg ∉ drv s.mode → levelAt t.levels sg = levelAt s.levels sg
  claims : ∀ p ∈ t.claimed, p ∈ s.claimed ∨ p ∈ s.drvPins

/-- A failing primitive on another signal leaves a signal's level. -/
theorem failPrim_levels_of_ne {p : Prim} {sg : Signal} (s : State) (h : signalOf p ≠ some sg) :
    levelAt (failPrim p s).levels sg = levelAt s.levels sg := by
  cases p with
  | cfg sg' => rfl
  | hold => rfl
  | wr sg' d => rw [failPrim_levels_wr, if_neg fun he => h (congrArg some he.symm)]

/-- The event of a primitive on a driven signal is on a driven pin. -/
theorem eventPin_eventOf_mem_drvPins {s : State} {p : Prim}
    (hp : ∀ sg, signalOf p = some sg → sg ∈ drv s.mode) (a : PortAnswer) :
    ∀ ev ∈ [eventOf s a p], ∀ q, eventPin ev = some q → q ∈ s.drvPins := by
  intro ev hev q hq
  rw [List.mem_singleton.mp hev, eventPin_eventOf] at hq
  obtain ⟨sg, hsg, rfl⟩ := Option.map_eq_some_iff.mp hq
  exact State.pin_mem_drvPins (hp sg hsg)

namespace DrivenOnly

variable {s t u : State} {p : Prim}

theorem refl (s : State) : DrivenOnly s s :=
  ⟨rfl, rfl, ⟨[], by simp, nofun⟩, fun _ _ => rfl, fun _ => .inl⟩

theorem trans (h : DrivenOnly s t) (h' : DrivenOnly t u) : DrivenOnly s u where
  mode := h'.mode.trans h.mode
  pins := h'.pins.trans h.pins
  events := by
    obtain ⟨evs, htrace, hevs⟩ := h.events
    obtain ⟨evs', htrace', hevs'⟩ := h'.events
    rw [h.pins] at hevs'
    refine ⟨evs ++ evs', by rw [htrace', htrace, List.append_assoc], fun ev hev => ?_⟩
    exact (List.mem_append.mp hev).elim (hevs ev) (hevs' ev)
  levels sg hsg := (h'.levels sg (h.mode ▸ hsg)).trans (h.levels sg hsg)
  claims p hp := by
    obtain hp | hp := h'.claims p hp
    · exact h.claims p hp
    · exact .inr (h.pins ▸ hp)

theorem okPrim (hp : ∀ sg, signalOf p = some sg → sg ∈ drv s.mode) :
    DrivenOnly s (okPrim p s) where
  mode := okPrim_mode p s
  pins := okPrim_drvPins p s
  events := ⟨_, okPrim_trace p s, eventPin_eventOf_mem_drvPins hp .ok⟩
  levels sg hsg := okPrim_levels_of_ne s fun he => hsg (hp sg he)
  claims q hq := by
    rw [okPrim_claimed] at hq
    refine (List.mem_append.mp hq).imp_right fun hq => ?_
    cases p with
    | cfg sg =>
      obtain rfl : q = s.pin sg := by simpa [claimOf] using hq
      exact State.pin_mem_drvPins (hp sg rfl)
    | wr sg d => cases hq
    | hold => cases hq

theorem failPrim (hp : ∀ sg, signalOf p = some sg → sg ∈ drv s.mode) :
    DrivenOnly s (failPrim p s) where
  mode := failPrim_mode p s
  pins := failPrim_drvPins p s
  events := ⟨_, failPrim_trace p s, eventPin_eventOf_mem_drvPins hp .failed⟩
  levels sg hsg := failPrim_levels_of_ne s fun he => hsg (hp sg he)
  claims _ hq := .inl (failPrim_claimed p s ▸ hq)

/-- A run of primitives on driven signals, however it ends. -/
theorem runPrims {ps : List Prim} (hps : onDriven s.mode ps = true) :
    DrivenOnly s (runPrims ps s).state := by
  refine runPrims_state_induction
    (P := fun ps u => DrivenOnly s u ∧ onDriven u.mode ps = true)
    (fun u h => h.1) ?_ ?_ ⟨refl s, hps⟩
  · rintro p ps u ⟨h, hps⟩
    obtain ⟨hp, hrest⟩ := onDriven_cons.mp hps
    exact ⟨h.trans (okPrim hp), by simpa using hrest⟩
  · rintro p ps u ⟨h, hps⟩
    exact h.trans (failPrim (onDriven_cons.mp hps).1)

/-- Releasing pins of DRV(MODE) forgets the levels of driven signals alone. -/
theorem releaseAll (hclaims : ∀ p ∈ s.claimed, p ∈ s.drvPins) : DrivenOnly s (releaseAll s) where
  mode := releaseAll_mode s
  pins := releaseAll_drvPins s
  events := by
    refine ⟨_, releaseAll_trace s, fun ev hev q hq => ?_⟩
    obtain ⟨r, hr, rfl⟩ := List.mem_map.mp hev
    cases hq
    exact hclaims _ hr
  levels sg hsg := by rw [levelAt_releaseAll, if_neg fun h => hsg h.1]
  claims := nofun

theorem sendRequest (v : Byte) (asData : Bool) (s : State) :
    DrivenOnly s (sendRequest v asData s) := by
  by_cases hp : s.phase = .ready
  · obtain ⟨r, hr⟩ := sendRequest_of_ready v asData hp
    rw [hr]
    exact { runPrims (onDriven_sendBytePrims s.mode v asData) with }
  · rw [sendRequest_of_notReady _ _ hp]
    exact { refl s with }

theorem teardownRequest (hclaims : ∀ p ∈ s.claimed, p ∈ s.drvPins) :
    DrivenOnly s (teardownRequest s) := by
  obtain ⟨-, hr⟩ | ⟨-, hr⟩ := teardownRequest_cases s <;> rw [hr]
  · exact { releaseAll hclaims with }
  · exact { refl s with }

theorem initDone (h : DrivenOnly s t) :
    DrivenOnly s ((((t.setCursor ⟨0, 0, true⟩).setPhase .ready).setSeq .idle).setResult .ok) :=
  { h with }

theorem initAbort (hclaims : ∀ p ∈ s.claimed, p ∈ s.drvPins) (h : DrivenOnly s t) (k : ErrKind)
    (j : Nat) : DrivenOnly s (initAbort k j t) := by
  have hheld : ∀ p ∈ t.claimed, p ∈ t.drvPins := fun p hp =>
    h.pins ▸ (h.claims p hp).elim (hclaims p) id
  exact { h.trans (releaseAll hheld) with }

theorem initRequest (hclaims : ∀ p ∈ s.claimed, p ∈ s.drvPins) :
    DrivenOnly s (initRequest cmdvTable s) := by
  have hrun := runPrims (onDriven_initProgram s.mode)
  obtain ⟨-, hr⟩ | ⟨-, -, hr⟩ | ⟨-, -, hok, hr⟩ | ⟨-, -, n, p, hfail, hr⟩ := initRequest_cases s <;>
    rw [hr]
  · exact { refl s with }
  · exact { refl s with }
  · exact (runPrims_state_of_allOk hok ▸ hrun).initDone
  · exact (runPrims_state_of_firstFails hfail ▸ hrun).initAbort hclaims _ _

end DrivenOnly

/-- Settles O47: each of the three kinds of request issues its primitives on driven signals, and its releases on claimed
pins. -/
theorem onlyDrivenPinsAreTouched : Obligations.OnlyDrivenPinsAreTouched := by
  intro i s t hclaims h
  have hdriven : DrivenOnly s t := by
    obtain ⟨-, he⟩ | ⟨-, he⟩ | ⟨v, asData, -, he⟩ := exec_cases i s <;> cases he.symm.trans h
    · exact .initRequest hclaims
    · exact .teardownRequest hclaims
    · exact .sendRequest v asData s
  refine ⟨hdriven.events, hdriven.levels, fun hm => ?_⟩
  have hlow : ∀ sg ∈ [Signal.d0, .d1, .d2, .d3], levelAt t.levels sg = levelAt s.levels sg := by
    intro sg hsg
    refine hdriven.levels sg ?_
    rw [hm]
    revert sg
    decide
  exact ⟨hlow .d0 (by simp), hlow .d1 (by simp), hlow .d2 (by simp), hlow .d3 (by simp)⟩

end Sys2Proof.Machine

namespace Sys2Proof.Machine

open Sys2Proof.Safety

/-! ### Words and their bits (R71, R75) -/

/-- A field below leading bits is the leading bits in their place OR the field widened, as R171 and R83 write it. -/
theorem append_eq_or {m n : Nat} (p : BitVec m) (x : BitVec n) :
    p ++ x = (p ++ 0#n) ||| x.setWidth (m + n) := by
  refine BitVec.eq_of_getLsbD_eq fun i hi => ?_
  rw [BitVec.getLsbD_or, BitVec.getLsbD_append, BitVec.getLsbD_append, BitVec.getLsbD_setWidth]
  by_cases h : i < n
  · simp [h, hi]
  · simp [h, BitVec.getLsbD_of_ge x i (by omega)]

theorem bit9_eq_false_iff {w : ReqBits} : w.getLsbD 9 = false ↔ w.toNat < 512 := by
  have hmsb : w.getLsbD 9 = w.msb := (BitVec.msb_eq_getLsbD_last w).symm
  rw [hmsb, BitVec.msb_eq_false_iff_two_mul_lt]
  omega

/-- With bit 9 clear a request word is its control code. -/
theorem append_controlCode {w : ReqBits} (h9 : w.getLsbD 9 = false) :
    0b0#1 ++ w.extractLsb' 0 9 = w := by
  simp only [BitVec.eq_of_getLsbD_eq_iff, Nat.forall_lt_succ_right, BitVec.getLsbD_append]
  simp [h9, -BitVec.getLsbD_eq_getElem]

/-! ### What the decoder reads from a request word (R72) -/

theorem decodeReq10_of_send {w : ReqBits} (h9 : w.getLsbD 9 = true) :
    decodeReq10 w =
      if w.getLsbD 8 then .instr (.sendData (w.extractLsb' 0 8))
      else .instr (.sendCmd (w.extractLsb' 0 8)) := by
  rw [decodeReq10, if_pos h9]

theorem decodeReq10_of_control {w : ReqBits} (h9 : w.getLsbD 9 = false) :
    decodeReq10 w =
      if w = 0x000#10 then .instr .init else if w = 0x001#10 then .instr .teardown
      else .reservedRequest w := by
  have hcode (c : BitVec 9) : w.extractLsb' 0 9 = c ↔ w = 0b0#1 ++ c := by
    constructor
    · rintro rfl; exact (append_controlCode h9).symm
    · rintro rfl; exact BitVec.extractLsb'_append_eq_right
  simp only [decodeReq10, h9, hcode]
  rfl

/-- The reserved words are 0x002 to 0x1FF. -/
theorem decodeReq10_eq_reserved_iff {w : ReqBits} :
    decodeReq10 w = .reservedRequest w ↔ 2 ≤ w.toNat ∧ w.toNat < 512 := by
  rw [← bit9_eq_false_iff]
  cases h9 : w.getLsbD 9 with
  | true => rw [decodeReq10_of_send h9]; split <;> simp
  | false =>
    rw [decodeReq10_of_control h9]
    split_ifs with h0 h1
    · simp [h0]
    · simp [h1]
    · have h0' : w.toNat ≠ 0 := fun h => h0 (BitVec.eq_of_toNat_eq h)
      have h1' : w.toNat ≠ 1 := fun h => h1 (BitVec.eq_of_toNat_eq h)
      simp only [true_iff, and_true]
      omega

/-! ### Decoder and encoder are inverse (R71, R75) -/

/-- The bits an encoding starts with pick its branch of the decoder, and each field is read back at its place. -/
theorem decode_encode (i : Instr) : decode (encode i) = .instr i := by
  cases i with
  | init | teardown | clearDisplay => rfl
  | sendCmd | sendData =>
    simp only [encode, decode, decodeReq10, BitVec.getLsbD_append, BitVec.extractLsb'_append_eq_right]
    simp
  | returnHome | entryModeSet | displayControl | cursorDisplayShift | functionSet | setCgramAddr
  | setDdramAddr =>
    simp only [encode, decode, decodeCmd8, BitVec.getLsbD_append, BitVec.extractLsb'_append_eq_right]
    simp

theorem encode_of_decodeReq10 {w : ReqBits} {i : Instr} (h : decodeReq10 w = .instr i) :
    encode i = .req10 w := by
  cases h9 : w.getLsbD 9 with
  | false =>
    rw [decodeReq10_of_control h9] at h
    split_ifs at h with h0 h1 <;> cases h
    · rw [h0]; rfl
    · rw [h1]; rfl
  | true =>
    rw [decodeReq10_of_send h9] at h
    split_ifs at h with h8 <;> cases h
    all_goals
      simp only [encode, ReqWord.req10.injEq, BitVec.eq_of_getLsbD_eq_iff, Nat.forall_lt_succ_right,
        BitVec.getLsbD_append]
      simp [h9, h8, -BitVec.getLsbD_eq_getElem]

/-- In the branch of a class its leading bit is set and those above it are clear, as its encoding has them; the bits
below are the fields. -/
theorem encode_of_decodeCmd8 {b : Byte} {i : Instr} (h : decodeCmd8 b = .instr i) :
    encode i = .cmd8 b := by
  unfold decodeCmd8 at h
  split_ifs at h with h7 h6 h5 h4 h3 h2 h1 h0 <;> cases h
  all_goals
    simp only [encode, ReqWord.cmd8.injEq, BitVec.eq_of_getLsbD_eq_iff, Nat.forall_lt_succ_right,
      BitVec.getLsbD_append]
    simp [*, -BitVec.getLsbD_eq_getElem]

theorem decode_eq_instr_iff {w : ReqWord} {i : Instr} : decode w = .instr i ↔ encode i = w := by
  constructor
  · intro h
    cases w with
    | req10 bits => exact encode_of_decodeReq10 h
    | cmd8 byte => exact encode_of_decodeCmd8 h
  · rintro rfl
    exact decode_encode i

/-- A byte in no class has every bit clear. -/
theorem decode_eq_noClass_iff {b : Byte} : decode (.cmd8 b) = .noClass ↔ b = 0x00#8 := by
  constructor
  · intro h
    simp only [decode, decodeCmd8] at h
    split_ifs at h
    simp only [BitVec.eq_of_getLsbD_eq_iff, Nat.forall_lt_succ_right]
    simp [*, -BitVec.getLsbD_eq_getElem]
  · rintro rfl
    rfl

/-- Settles O1: the decoder inverts the encoder on every instruction. -/
theorem decodeOfEncode : Obligations.DecodeOfEncode := fun i _ => decode_encode i

/-- Settles O2: a word decodes to an instruction only when it is that instruction's encoding. -/
theorem encodeOfDecode : Obligations.EncodeOfDecode := fun _ _ => decode_eq_instr_iff.mp

/-! ### Request words and command bytes, case by case (R72, R75, R171) -/

theorem decode_ofNat_eq_reserved_iff {n : Nat} (hn : n < 1024) :
    decode (.req10 (BitVec.ofNat 10 n)) = .reservedRequest (BitVec.ofNat 10 n) ↔ 2 ≤ n ∧ n < 512 := by
  have hval : (BitVec.ofNat 10 n).toNat = n := Nat.mod_eq_of_lt hn
  rw [decode, decodeReq10_eq_reserved_iff, hval]

/-- There are 510 control codes from 0x002 to 0x1FF. -/
theorem count_reserved : Nat.count (fun n => 2 ≤ n ∧ n < 512) 1024 = 510 := by
  have hcodes : (Finset.range 1024).filter (fun n => 2 ≤ n ∧ n < 512) = Finset.Ico 2 512 := by
    ext n
    simp only [Finset.mem_filter, Finset.mem_range, Finset.mem_Ico]
    omega
  rw [Nat.count_eq_card_filter_range, hcodes, Nat.card_Ico]

/-- Settles O3: bit 9 parts the SENDs from the control codes, of which all but the first two are reserved. -/
theorem requestWordsDecodeTotally : Obligations.RequestWordsDecodeTotally := by
  refine ⟨fun w => ⟨fun h9 h8 => ?_, fun h9 h8 => ?_, ?_, ?_, fun h9 h0 h1 => ?_⟩, ?_, ?_⟩
  · exact (decodeReq10_of_send h9).trans (by rw [h8]; rfl)
  · exact (decodeReq10_of_send h9).trans (by rw [h8]; rfl)
  · rintro rfl; rfl
  · rintro rfl; rfl
  · exact (decodeReq10_of_control h9).trans (by rw [if_neg h0, if_neg h1])
  · intro s w rest hq hw
    exact step_of_reserved hq (by rw [requestOf, hw])
  · rw [List.filter_congr fun n hn =>
      decide_eq_decide.mpr (decode_ofNat_eq_reserved_iff (List.mem_range.mp hn)),
      ← List.countP_eq_length_filter]
    exact count_reserved

/-- Settles O4: a byte decodes to a class with its own bits as the fields when it is that class's encoding, which fixes
just the bits of the class's mask. -/
theorem commandBytesHaveOneClass : Obligations.CommandBytesHaveOneClass := by
  intro b
  refine ⟨?_, ?_, ?_, ?_, ?_, ?_, ?_, ?_, (decode_eq_noClass_iff (b := b)).symm⟩
  all_goals
    rw [decode_eq_instr_iff]
    simp only [encode, ReqWord.cmd8.injEq, BitVec.eq_of_getLsbD_eq_iff, Nat.forall_lt_succ_right,
      BitVec.getLsbD_append, BitVec.getLsbD_and]
    simp [-BitVec.getLsbD_eq_getElem]

/-- Settles O5: each setting of the flags is a closed fact; an address is OR-ed in below its class's leading bits. -/
theorem flagsOrToTheClassPattern : Obligations.FlagsOrToTheClassPattern := by
  refine ⟨rfl, rfl, by decide, by decide, by decide, by decide, fun a => ?_, fun a => ?_⟩
  · exact congrArg ReqWord.cmd8 (append_eq_or 0b01#2 a)
  · exact congrArg ReqWord.cmd8 (append_eq_or 0b1#1 a)

/-- Settles O7: the decoder evaluated on ten closed words. -/
theorem writtenOutWordsDecode : Obligations.WrittenOutWordsDecode := by
  unfold Obligations.WrittenOutWordsDecode
  decide

/-! ### Pseudo-requests (R83) -/

/-- Bits OR-ed into a command byte are OR-ed into its SEND_CMD word. -/
theorem encode_sendCmd_or (p x : Byte) :
    encode (.sendCmd (p ||| x)) = .req10 ((0b10#2 ++ p) ||| x.setWidth 10) := by
  rw [encode, append_eq_or 0b10#2 (p ||| x), append_eq_or 0b10#2 p, BitVec.setWidth_or, BitVec.or_assoc]

/-- Settles O10: the column of a POS goes into the word as into the byte. -/
theorem pseudoRequestsExpand : Obligations.PseudoRequestsExpand := by
  refine ⟨fun _ => rfl, fun _ => rfl, rfl, fun x hx => ?_⟩
  have hwidth : (BitVec.ofNat 8 x).setWidth 10 = BitVec.ofNat 10 x :=
    BitVec.setWidth_ofNat_of_le_of_lt (by decide) (by omega)
  simp [expand, positionByte, hx, encode_sendCmd_or, hwidth]

/-! ### Bus words (R80) -/

/-- A 4-bit bus word reads as the nibble it carries. -/
theorem busValue_nibbleBus (n : Nibble) : busValue (nibbleBus n) = some n.toNat := by
  calc busValue (nibbleBus n)
      = levelsValue 0 ((List.range 4).reverse.map fun i => bitLevel (n.toNat.testBit i)) := rfl
    _ = some n.toNat := by rw [levelsValue_bits, Nat.zero_mul, Nat.zero_add, Nat.mod_eq_of_lt n.isLt]

theorem levelsValue_of_unknown {ls : List Level} (acc : Nat) (h : Level.unknown ∈ ls) :
    levelsValue acc ls = none := by
  induction ls generalizing acc with
  | nil => cases h
  | cons l ls ih =>
    cases l with
    | unknown => rfl
    | low | high => exact ih _ (by simpa using h)

/-- Settles O11: known lines read as the bits on them, and the reading ends at a line at X. -/
theorem busWordsRead : Obligations.BusWordsRead :=
  ⟨busValue_byteBus, busValue_nibbleBus, fun _ => levelsValue_of_unknown 0⟩

/-! ### Steps without a class or a request (log entries 6 and 7), and the counts of one byte (R108) -/

/-- Settles O14: the byte 0x00 asks for SEND_CMD 0x00, and a block with an empty queue waits. -/
theorem stepWithoutAClassOrARequest : Obligations.StepWithoutAClassOrARequest :=
  ⟨fun _ _ hq => step_of_request hq rfl, fun _ => step_of_noRequest⟩

/-- Settles O22: one event per primitive of the transfer and the latches R109 writes out, counted in each mode. -/
theorem byteTransferCounts : Obligations.ByteTransferCounts := by
  intro i v asData s hb hp hok
  refine ⟨_, (sendBytePrims s.mode v asData).map (eventOf s .ok), sentLatches s.mode v asData,
    exec_of_carriedByte s hb, ?_⟩
  rw [sendRequest_of_allOk hp hok]
  refine ⟨rfl, okRun_trace _ s, okRun_sendBytePrims_latch v asData s, fun hm => ?_, fun hm => ?_⟩
  · rw [hm]; exact ⟨rfl, rfl, rfl, rfl⟩
  · rw [hm]; exact ⟨rfl, rfl, rfl, rfl⟩

end Sys2Proof.Machine

namespace Sys2Proof.Machine

open Sys2Proof.Safety

/-! ### A byte transfer that goes through, as the whole next state (R103, R109, R110) -/

/-- The inputs and the dynamic fields are the whole state. -/
theorem State.eq_of_fields {s t : State} (hinputs : t.inputs = s.inputs) (hphase : t.phase = s.phase)
    (hseq : t.seq = s.seq) (hclaimed : t.claimed = s.claimed) (hlevels : t.levels = s.levels)
    (htrace : t.trace = s.trace) (hlatch : t.latch = s.latch) (hcursor : t.cursor = s.cursor)
    (hresult : t.result = s.result) : t = s := by
  obtain ⟨hmode, hpinmap, hgeometry, hrequests, hport⟩ := State.inputs_eq_iff.mp hinputs
  cases s
  cases t
  simp only [State.mk.injEq]
  exact ⟨hmode, hpinmap, hgeometry, hphase, hseq, hclaimed, hlevels, htrace, hlatch, hcursor, hresult,
    hrequests, hport⟩

/-- One `ok` event per primitive of a byte transfer gives the events R103 writes out. -/
theorem map_eventOf_sendBytePrims (v : Byte) (asData : Bool) (s : State) :
    (sendBytePrims s.mode v asData).map (eventOf s .ok) = sentEvents s v asData := by
  cases hm : s.mode with
  | eightBit => simp only [sentEvents, hm]; rfl
  | fourBit =>
    simp [sendBytePrims, putNibblePrims, strobePrims, sentEvents, strobeEvents, okWr, driveOf, eventOf,
      hm]

/-- The primitives of a byte transfer, all `ok`, leave the state R104 and R110 write out. -/
theorem okRun_sendBytePrims_eq_afterSend (v : Byte) (asData : Bool) (s : State) :
    (okRun (sendBytePrims s.mode v asData) s).setResult .ok = afterSend v asData s := by
  refine State.eq_of_fields ?inputs ?phase ?seq ?claimed ?levels ?trace ?latch ?cursor rfl
  case inputs => exact okRun_inputs _ s
  case phase => exact okRun_phase _ s
  case seq => exact okRun_seq _ s
  case claimed => exact (okRun_claimed _ s).trans (by simp [claimOf_sendBytePrims, afterSend])
  case levels => exact okRun_sendBytePrims_levels s.mode v asData s
  case trace => exact (okRun_trace _ s).trans (by rw [map_eventOf_sendBytePrims]; rfl)
  case latch => exact okRun_sendBytePrims_latch v asData s
  case cursor => exact okRun_cursor _ s

/-- In READY, when no primitive fails, a request that carries a byte leaves the state written out for it. -/
theorem exec_of_carriedByte_allOk {i : Instr} {v : Byte} {asData : Bool} {s : State}
    (hb : carriedByte i = some (v, asData)) (hp : s.phase = .ready)
    (hok : AllOk (sendBytePrims s.mode v asData) s) : exec i s = .next (afterSend v asData s) := by
  rw [exec_of_carriedByte s hb, sendRequest_of_allOk hp hok, okRun_sendBytePrims_eq_afterSend]

/-- Settles O19: SEND_CMD and SEND_DATA carry their operand as it is. -/
theorem sendRequestsTransmitTheirByte : Obligations.SendRequestsTransmitTheirByte :=
  fun _ _ hp => ⟨exec_of_carriedByte_allOk rfl hp, exec_of_carriedByte_allOk rfl hp⟩

/-- The byte a command class carries is the byte that encodes it (R75, R172 to R179). -/
theorem carriedByte_of_encode_cmd8 {i : Instr} {b : Byte} (h : encode i = .cmd8 b) :
    carriedByte i = some (b, false) := by
  cases i with
  | init | teardown | sendCmd | sendData => cases h
  | clearDisplay => cases h; rfl
  | returnHome x => cases h; exact congrArg (fun b => some (b, false)) (append_eq_or 0b0000001#7 x).symm
  | setCgramAddr a => cases h; exact congrArg (fun b => some (b, false)) (append_eq_or 0b01#2 a).symm
  | setDdramAddr a => cases h; exact congrArg (fun b => some (b, false)) (append_eq_or 0b1#1 a).symm
  | entryModeSet inc sh => cases h; revert inc sh; decide
  | displayControl d c k => cases h; revert d c k; decide
  | cursorDisplayShift sc rl x => cases h; revert sc rl x; decide
  | functionSet dl n f x => cases h; revert dl n f x; decide

/-- In READY, when no primitive fails, a command class transmits the byte that encodes it. -/
theorem exec_of_encode_cmd8_allOk {i : Instr} {b : Byte} {s : State} (hi : encode i = .cmd8 b)
    (hp : s.phase = .ready) (hok : AllOk (sendBytePrims s.mode b false) s) :
    exec i s = .next (afterSend b false s) :=
  exec_of_carriedByte_allOk (carriedByte_of_encode_cmd8 hi) hp hok

/-- Settles O20: each class's pattern with its fields is its encoding. -/
theorem commandClassesTransmitTheirByte : Obligations.CommandClassesTransmitTheirByte := by
  intro s hp
  refine ⟨exec_of_encode_cmd8_allOk rfl hp, fun x => exec_of_encode_cmd8_allOk rfl hp, ?_, ?_, ?_, ?_,
    fun a => exec_of_encode_cmd8_allOk rfl hp, fun a => exec_of_encode_cmd8_allOk rfl hp⟩
  · rintro inc sh b rfl; exact exec_of_encode_cmd8_allOk rfl hp
  · rintro d c k b rfl; exact exec_of_encode_cmd8_allOk rfl hp
  · rintro sc rl x b rfl; exact exec_of_encode_cmd8_allOk rfl hp
  · rintro dl n f x b rfl; exact exec_of_encode_cmd8_allOk rfl hp

/-! ### What no SEND does (R104, R109) -/

/-- Whatever the Port answers, a SEND leaves PHASE, SEQ, CLAIMED and CURSOR. -/
theorem sendRequest_keeps (v : Byte) (asData : Bool) (s : State) :
    (sendRequest v asData s).phase = s.phase ∧ (sendRequest v asData s).seq = s.seq ∧
      (sendRequest v asData s).claimed = s.claimed ∧ (sendRequest v asData s).cursor = s.cursor := by
  by_cases hp : s.phase = .ready
  · obtain ⟨r, hr⟩ := sendRequest_of_ready v asData hp
    simp [hr, runPrims_state_claimed s claimOf_sendBytePrims]
  · rw [sendRequest_of_notReady _ _ hp]
    exact ⟨rfl, rfl, rfl, rfl⟩

/-- Settles O25: a SEND writes what its primitives on driven signals write, and RESULT. -/
theorem sendFrame : Obligations.SendFrame := by
  intro i v asData s t hb h
  obtain ⟨⟨evs, hevs⟩, ⟨ls, hls⟩⟩ := extends_exec h
  cases (exec_of_carriedByte s hb).symm.trans h
  obtain ⟨hmode, hpinmap, hgeometry, hrequests, hport⟩ :=
    State.inputs_eq_iff.mp (sendRequest_inputs v asData s)
  obtain ⟨hphase, hseq, hclaimed, hcursor⟩ := sendRequest_keeps v asData s
  exact ⟨hmode, hpinmap, hgeometry, hphase, hseq, hclaimed, hcursor, hrequests, hport,
    (DrivenOnly.sendRequest v asData s).levels, ⟨evs, hevs.symm⟩, ⟨ls, hls.symm⟩⟩

/-- Settles O26: a byte transfer raises E before it lowers it, and a refused SEND latches nothing. -/
theorem sendLatchesAreCertain : Obligations.SendLatchesAreCertain := by
  intro i v asData s t hb h
  cases (exec_of_carriedByte s hb).symm.trans h
  by_cases hp : s.phase = .ready
  · obtain ⟨r, hr⟩ := sendRequest_of_ready v asData hp
    rw [hr]
    exact certainLatches_runPrims (raisesFirst_sendBytePrims s.mode v asData)
  · rw [sendRequest_of_notReady _ _ hp]
    exact ⟨[], by simp, by simp⟩

/-! ### A SEND that fails (R111, R206, R208) -/

/-- The last write of a list is the last of the rest, or else the first primitive's. -/
theorem lastDriven_cons (p : Prim) (ps : List Prim) (sg : Signal) :
    lastDriven (p :: ps) sg = (lastDriven ps sg).or (lastDriven [p] sg) := by
  rw [← List.singleton_append, lastDriven, List.filterMap_append, List.getLast?_append]
  rfl

/-- An `ok` primitive leaves the level it drives, or the level there was (R29). -/
theorem levelAt_okPrim (p : Prim) (s : State) (sg : Signal) :
    levelAt (okPrim p s).levels sg =
      ((lastDriven [p] sg).map driveLevel).getD (levelAt s.levels sg) := by
  cases p with
  | cfg sg' => rfl
  | hold => rfl
  | wr sg' d =>
    rw [okPrim_levels_wr]
    by_cases h : sg = sg'
    · simp [lastDriven, h]
    · simp [lastDriven, h, Ne.symm h]

/-- A run that does not fail leaves each line at the level last driven (R29). -/
theorem levelAt_okRun (ps : List Prim) (s : State) (sg : Signal) :
    levelAt (okRun ps s).levels sg =
      ((lastDriven ps sg).map driveLevel).getD (levelAt s.levels sg) := by
  induction ps generalizing s with
  | nil => rfl
  | cons p ps ih =>
    rw [okRun_cons, ih, lastDriven_cons, levelAt_okPrim]
    cases lastDriven ps sg <;> rfl

/-- A failing primitive that is no write of a signal leaves its level (R29). -/
theorem levelAt_failPrim_of_not_wr {p : Prim} {sg : Signal} (s : State) (h : ∀ d, p ≠ .wr sg d) :
    levelAt (failPrim p s).levels sg = levelAt s.levels sg := by
  cases p with
  | cfg sg' => rfl
  | hold => rfl
  | wr sg' d => rw [failPrim_levels_wr, if_neg (by rintro rfl; exact h d rfl)]

/-- The falling edges of E among primitives (R31). -/
def falls (ps : List Prim) : Nat := (ps.filter fun q => decide (q = .wr .e .low)).length

/-- Is E high before each of its falls, when it is before `ps` if `up`? -/
def fallsFromHigh (up : Bool) (ps : List Prim) : Bool :=
  match ps with
  | [] => true
  | p :: rest =>
    if p = .wr .e .low then up && fallsFromHigh false rest
    else fallsFromHigh (up || p == .wr .e .high) rest

theorem fallsFromHigh_sendBytePrims (m : Mode) (v : Byte) (asData : Bool) :
    fallsFromHigh false (sendBytePrims m v asData) = true := by
  cases m <;> rfl

/-- A raise leaves E high, and only a fall ends that. -/
theorem okPrim_e_high {p : Prim} {s : State} (hp : p ≠ .wr .e .low)
    (h : s.levels.e = .high ∨ p = .wr .e .high) : (okPrim p s).levels.e = .high := by
  change levelAt (okPrim p s).levels .e = .high
  obtain h | rfl := h
  · cases p with
    | cfg sg => exact h
    | hold => exact h
    | wr sg d =>
      rw [okPrim_levels_wr]
      split
      next he =>
        cases d with
        | high => rfl
        | low => exact absurd (he ▸ rfl) hp
      next => exact h
  · rfl

/-- As far as it is run, such a list makes one latch event per fall of E (R31). -/
theorem okRun_take_latch_length {up : Bool} {ps : List Prim} {s : State} (n : Nat)
    (hps : fallsFromHigh up ps = true) (hup : up = true → s.levels.e = .high) :
    (okRun (ps.take n) s).latch.length = s.latch.length + falls (ps.take n) := by
  induction ps generalizing up s n with
  | nil => simp [falls]
  | cons p ps ih =>
    cases n with
    | zero => simp [falls]
    | succ n =>
      rw [List.take_succ_cons, okRun_cons]
      rw [fallsFromHigh] at hps
      split at hps
      next hfall =>
        subst hfall
        obtain ⟨hhigh, hrest⟩ := Bool.and_eq_true_iff.mp hps
        rw [ih n hrest nofun, okPrim_latch_lowerE, latchOnWrite_of_high (hup hhigh)]
        simp [falls, Nat.add_assoc, Nat.add_comm 1]
      next hne =>
        have hhigh : (up || p == .wr .e .high) = true → (okPrim p s).levels.e = .high := fun hr =>
          okPrim_e_high hne ((Bool.or_eq_true_iff.mp hr).imp hup eq_of_beq)
        rw [ih n hps hhigh, okPrim_latch_of_ne s hne]
        simp [falls, hne]

/-- A byte transfer cut off before place `n` has made the first of its latch events, one per fall (R109, R111). -/
theorem okRun_take_sendBytePrims_latch (v : Byte) (asData : Bool) (s : State) (n : Nat) :
    (okRun ((sendBytePrims s.mode v asData).take n) s).latch =
      s.latch ++ (sentLatches s.mode v asData).take (falls ((sendBytePrims s.mode v asData).take n)) := by
  have hwhole : (okRun ((sendBytePrims s.mode v asData).take n) s).latch <+:
      s.latch ++ sentLatches s.mode v asData := by
    rw [← okRun_sendBytePrims_latch, ← List.take_append_drop n (sendBytePrims s.mode v asData),
      okRun_append, List.take_append_drop]
    exact (extends_okRun _ _).2
  have hlen := okRun_take_latch_length (s := s) n (fallsFromHigh_sendBytePrims s.mode v asData) nofun
  rw [List.prefix_iff_eq_take.mp hwhole, hlen, List.take_length_add_append]

/-- Settles O23: the primitives before the failing one are a run that goes through. -/
theorem failedSendIsPrecise : Obligations.FailedSendIsPrecise := by
  intro i v asData s n p hb hp h
  obtain ⟨hphase, hseq, hclaimed, hcursor⟩ := sendRequest_keeps v asData s
  have hsend := sendRequest_of_firstFails hp h
  refine ⟨_, exec_of_carriedByte s hb, ?result, ?trace, ?latch, ?failed, ?others, hphase.trans hp,
    hclaimed, hcursor, hseq⟩ <;> rw [hsend]
  case result => rfl
  case trace => rw [State.setResult_trace, failPrim_trace, okRun_trace, eventOf_okRun]
  case latch =>
    rw [State.setResult_latch, failPrim_latch]
    exact okRun_take_sendBytePrims_latch v asData s n
  case failed =>
    rintro sg d rfl
    rw [State.setResult_levels, failPrim_levels_wr, if_pos rfl]
  case others =>
    intro sg hne
    rw [State.setResult_levels, levelAt_failPrim_of_not_wr _ hne, levelAt_okRun]
    cases lastDriven ((sendBytePrims s.mode v asData).take n) sg <;> rfl

end Sys2Proof.Machine

namespace Sys2Proof.Machine

open Sys2Proof.Safety

/-! ### One turn of the sequencer (R131, R180) -/

theorem seqStep_of_allOk {c : CmdV} {s : State} (h : AllOk (seqPrims c s.mode s.seq) s) :
    (seqStep c s).seq = seqNext s.mode s.seq := by
  simp [seqStep, runPrims_ok h]

theorem seqStep_of_firstFails {c : CmdV} {s : State} {n : Nat} {p : Prim}
    (h : FirstFails (seqPrims c s.mode s.seq) n p s) :
    (seqStep c s).seq = .abort (failureOf p) (s.trace.length + n + 1) := by
  simp [seqStep, runPrims_fail h]

/-- Settles O30: a turn that goes through takes SEQ to `seqNext`, one that fails to ABORT. -/
theorem sequencerAdvancesInOrder : Obligations.SequencerAdvancesInOrder := by
  intro c s
  refine ⟨fun h => ?_, fun n p h => seqStep_of_firstFails h⟩
  rw [seqStep_of_allOk h]
  refine ⟨fun i hq hi => ?_, fun i hq hi => ?_, ?_⟩
  · simp [hq, seqNext, hi]
  · simp [hq, seqNext, hi]
  · refine ⟨?_, ?_, ?_, ?_, ?_, ?_, ?_, ?_, ?_⟩
    all_goals intro hq; rw [hq]; rfl

/-- Settles O29: the flags of R170 OR to the bytes of R180. -/
theorem initCommandBytes : Obligations.InitCommandBytes :=
  ⟨rfl, rfl, fun _ => ⟨rfl, rfl, rfl, rfl, rfl⟩⟩

/-! ### INIT as a straight program (R130, R141, R142) -/

/-- Settles O31: the loop runs the steps' primitives in order, and ends READY after S8_MARK or aborts. -/
theorem sequencerRunsTheStraightProgram : Obligations.SequencerRunsTheStraightProgram := by
  intro s hp hv
  refine congrArg Host.Outcome.next ?_
  rw [initRequest_eq_runPrims hp hv]
  cases runPrims (initProgram s.mode) s <;> rfl

/-- Settles O38: the Port answers `ok` throughout, or some primitive is the first to fail. -/
theorem initEndsReadyOrReleased : Obligations.InitEndsReadyOrReleased := by
  intro s hp hv
  refine ⟨_, rfl, ?_⟩
  obtain h | ⟨n, p, h⟩ := allOk_or_firstFails (initProgram s.mode) s
  · rw [initRequest_of_allOk hp hv h]
    exact .inl ⟨rfl, rfl, h⟩
  · rw [initRequest_of_firstFails hp hv h]
    exact .inr ⟨n, p, h, rfl, rfl, rfl⟩

/-! ### What a successful INIT issues (R147) -/

@[simp] theorem isRel_eventOf (s : State) (a : PortAnswer) (p : Prim) :
    isRel (eventOf s a p) = false := by
  cases p <;> rfl

@[simp] theorem isRel_rel (p : PinId) : isRel (.rel p) = true := rfl

/-- One `ok` event per primitive gives the events R147 writes out. -/
theorem map_eventOf_initProgram (s : State) :
    (initProgram s.mode).map (eventOf s .ok) = initEvents s := by
  simp only [initProgram, initEvents, List.map_append, List.map_flatMap, map_eventOf_sendBytePrims]
  cases s.mode <;> rfl

/-- A valid PINMAP gives two driven signals two pins (R23). -/
theorem pin_inj_of_valid {s : State} (hv : validPinMap s.pinmap s.mode = true) {sg sg' : Signal}
    (h : sg ∈ drv s.mode) (h' : sg' ∈ drv s.mode) : s.pin sg = s.pin sg' ↔ sg = sg' := by
  have hinj := (List.nodup_map_iff_inj_on (drv_nodup s.mode)).mp (drv_pins_nodup hv)
  exact ⟨fun he => hinj sg h sg' h' (congrArg some he), fun he => he ▸ rfl⟩

/-- Under a valid PINMAP an event of a driven signal's primitive tells which primitive it was. -/
theorem eventOf_eq_raise_iff {s : State} (hv : validPinMap s.pinmap s.mode = true) {p : Prim}
    (hp : ∀ sg, signalOf p = some sg → sg ∈ drv s.mode) :
    eventOf s .ok p = .wr (s.pin .e) .high .ok ↔ p = .wr .e .high := by
  cases p with
  | cfg sg => simp [eventOf]
  | hold => simp [eventOf]
  | wr sg d =>
    have he : Signal.e ∈ drv s.mode := by cases s.mode <;> decide
    simp [eventOf, pin_inj_of_valid hv (hp sg rfl) he]

/-- Under a valid PINMAP the raises of E are counted by their events. -/
theorem length_filter_raise {s : State} (hv : validPinMap s.pinmap s.mode = true) {ps : List Prim}
    (hps : onDriven s.mode ps = true) :
    ((ps.map (eventOf s .ok)).filter fun ev => decide (ev = .wr (s.pin .e) .high .ok)).length =
      (ps.filter fun p => decide (p = .wr .e .high)).length := by
  induction ps with
  | nil => rfl
  | cons p ps ih =>
    obtain ⟨hp, hrest⟩ := onDriven_cons.mp hps
    simp only [List.map_cons, List.filter_cons, eventOf_eq_raise_iff hv hp]
    split <;> simp [ih hrest]

/-- Settles O34: one event per primitive, counted in each mode; a strobe is known by its raise of E. -/
theorem initEventCounts : Obligations.InitEventCounts := by
  intro s hp hv hok
  refine ⟨_, (initProgram s.mode).map (eventOf s .ok), rfl, ?trace, ?released, fun hm => ?_,
    fun hm => ?_⟩
  case trace => simp [initRequest_of_allOk hp hv hok, okRun_trace]
  case released => simp [List.filter_map, Function.comp_def]
  all_goals
    rw [length_filter_raise hv (onDriven_initProgram s.mode), hm]
    exact ⟨rfl, rfl, rfl, rfl, rfl⟩

/-! ### What a successful INIT latches (R148) -/

/-- Step 1: each driven signal is claimed and driven low (R132). -/
def claimPrims (m : Mode) : List Prim := (drv m).flatMap fun sg => [.cfg sg, .wr sg .low]

/-- Steps 2 and 3: the wake-up (R133, R134). -/
def wakePrims (m : Mode) : List Prim := seqPrims cmdvTable m .s2 ++ seqPrims cmdvTable m .s3

/-- The bytes of steps 4 to 8 (R180). -/
def initBytes (m : Mode) : List Byte :=
  [match m with | .eightBit => 0x3C#8 | .fourBit => 0x2C#8, 0x0E#8, 0x06#8, 0x14#8, 0x01#8, 0x80#8]

/-- INIT's program is step 1, the wake-up, and six byte transfers. -/
theorem initProgram_eq (m : Mode) :
    initProgram m =
      claimPrims m ++ (wakePrims m ++ (initBytes m).flatMap fun v => sendBytePrims m v false) := by
  cases m <;> rfl

/-- Step 1 latches at most at its drive-low of E, with RS low by then (R31, R132). -/
theorem okRun_claimPrims_latch (s : State) :
    (okRun (claimPrims s.mode) s).latch = s.latch ++ firstEdge s := by
  obtain ⟨rest, hclaims, hrest⟩ : ∃ rest, claimPrims s.mode =
      [.cfg .rs, .wr .rs .low, .cfg .e, .wr .e .low] ++ rest ∧ Prim.wr .e .low ∉ rest := by
    cases s.mode <;> exact ⟨_, rfl, by decide⟩
  rw [hclaims, okRun_append, okRun_latch_of_noEdge _ hrest]
  cases hE : s.levels.e <;> cases hm : s.mode <;>
    simp [okPrim, latchOnWrite, setLevelAt, busOf, firstEdge, hE, hm]

/-- Step 1 leaves every driven line low. -/
theorem okRun_claimPrims_levels {s : State} {sg : Signal} (h : sg ∈ drv s.mode) :
    levelAt (okRun (claimPrims s.mode) s).levels sg = .low := by
  have hlast : ∀ m : Mode, ∀ sg ∈ drv m, lastDriven (claimPrims m) sg = some .low := by
    intro m
    cases m <;> decide
  rw [levelAt_okRun, hlast _ sg h]
  rfl

/-- From low lines, the wake-up strobes three times 0x3 and then 0x2 in FourBit, 0x30 throughout in EightBit. -/
theorem okRun_wake_latch {s : State} (h : ∀ sg ∈ drv s.mode, levelAt s.levels sg = .low) :
    (okRun (wakePrims s.mode) s).latch = s.latch ++ (initLatches s.mode).take 4 := by
  cases hm : s.mode <;> simp only [hm, drv, List.forall_mem_cons, levelAt] at h <;>
    simp [wakePrims, seqPrims, strobePrims, okPrim, latchOnWrite, setLevelAt, busOf, initLatches, nibbleBus,
      byteBus, bitLevel, driveOf, hm, h]

/-- Byte transfers in a row latch what each latches (R109). -/
theorem okRun_sendBytes_latch (vs : List Byte) (asData : Bool) (s : State) :
    (okRun (vs.flatMap fun v => sendBytePrims s.mode v asData) s).latch =
      s.latch ++ vs.flatMap fun v => sentLatches s.mode v asData := by
  induction vs generalizing s with
  | nil => simp
  | cons v vs ih =>
    have hrest := ih (okRun (sendBytePrims s.mode v asData) s)
    rw [okRun_mode] at hrest
    rw [List.flatMap_cons, okRun_append, hrest, okRun_sendBytePrims_latch, List.append_assoc,
      List.flatMap_cons]

/-- A successful INIT latches its first edge and what R148 lists. -/
theorem okRun_initProgram_latch (s : State) :
    (okRun (initProgram s.mode) s).latch = s.latch ++ firstEdge s ++ initLatches s.mode := by
  have hsplit : initLatches s.mode = (initLatches s.mode).take 4 ++
      (initBytes s.mode).flatMap fun v => sentLatches s.mode v false := by
    cases s.mode <;> rfl
  have hwake := okRun_wake_latch (s := okRun (claimPrims s.mode) s)
    fun sg hsg => okRun_claimPrims_levels (by simpa using hsg)
  have hsend := okRun_sendBytes_latch (initBytes s.mode) false
    (okRun (wakePrims s.mode) (okRun (claimPrims s.mode) s))
  simp only [okRun_mode] at hwake hsend
  rw [initProgram_eq, okRun_append, okRun_append _ (List.flatMap _ _), hsend, hwake,
    okRun_claimPrims_latch, List.append_assoc _ (List.take _ _), ← hsplit]

/-! ### What a successful INIT leaves (R231) -/

/-- The levels a successful INIT leaves are those of its last byte and of E. -/
theorem okRun_initProgram_levels (s : State) :
    (okRun (initProgram s.mode) s).levels = initLevels s.mode s.levels := by
  refine levels_ext fun sg => ?_
  rw [levelAt_okRun]
  cases s.mode <;> cases sg <;> rfl

@[simp] theorem afterInit_inputs (s : State) : (afterInit s).inputs = s.inputs := rfl

/-- Settles O32: the program's run, all `ok`, field by field. -/
theorem initBringsTheBlockReady : Obligations.InitBringsTheBlockReady := by
  intro s hp hv hok
  refine congrArg Host.Outcome.next ((initRequest_of_allOk hp hv hok).trans ?_)
  refine State.eq_of_fields ?inputs rfl rfl ?claimed ?levels ?trace ?latch rfl rfl
  case inputs => simp
  case claimed => simp [okRun_claimed, claimOf_initProgram, afterInit, State.drvPins]
  case levels => simp [okRun_initProgram_levels, afterInit]
  case trace => simp [okRun_trace, map_eventOf_initProgram, afterInit]
  case latch => simp [okRun_initProgram_latch, afterInit]

/-- Settles O33: from X levels the first edge is a `MaybeLatch` with an unknown bus. -/
theorem initLatchList : Obligations.InitLatchList := by
  intro s hp hv hlevels hlatch hok
  refine ⟨_, initBringsTheBlockReady s hp hv hok, fun hm => ?_, fun hm => ?_⟩ <;>
    simp [afterInit, firstEdge, hlevels, hlatch, hm, Levels.allUnknown, busOf, initLatches]

/-! ### A failing INIT (R142, R143) -/

@[simp] theorem initAbort_mode (k : ErrKind) (j : Nat) (s : State) : (initAbort k j s).mode = s.mode :=
  releaseAll_mode s

/-- The events of a failing INIT: the primitives before the failing one, that one, and a release per claim (R142). -/
theorem initRequest_trace_of_firstFails {s : State} {n : Nat} {p : Prim} (hp : s.phase = .uninit)
    (hv : validPinMap s.pinmap s.mode = true) (h : FirstFails (initProgram s.mode) n p s) :
    (initRequest cmdvTable s).trace =
      s.trace ++ ((initProgram s.mode).take n).map (eventOf s .ok) ++ [eventOf s .failed p] ++
        (s.claimed ++ (((initProgram s.mode).take n).filterMap claimOf).map s.pin).map Event.rel := by
  rw [initRequest_of_firstFails hp hv h, initAbort_trace, failPrim_trace, failPrim_claimed,
    okRun_trace, okRun_claimed, eventOf_okRun]

/-- Settles O35: the run up to the failing primitive, then the abort. -/
theorem failedInitReleasesEveryClaim : Obligations.FailedInitReleasesEveryClaim := by
  intro s n p hp hv h
  refine ⟨_, rfl, ?phase, ?seq, ?claimed, ?cursor, ?mode, ?result,
    initRequest_trace_of_firstFails hp hv h⟩ <;> rw [initRequest_of_firstFails hp hv h]
  case phase => rfl
  case seq => rfl
  case claimed => rfl
  case cursor => simp
  case mode => simp
  case result => rfl

/-- The first `n` primitives of step 1 claim the first half of `n`, rounded up, of the signals. -/
theorem claimOf_take_claims (sgs : List Signal) (n : Nat) :
    ((sgs.flatMap fun sg => [Prim.cfg sg, .wr sg .low]).take n).filterMap claimOf =
      sgs.take ((n + 1) / 2) := by
  induction sgs generalizing n with
  | nil => simp
  | cons sg sgs ih =>
    match n with
    | 0 => rfl
    | 1 => rfl
    | n + 2 =>
      have hhalf : (n + 2 + 1) / 2 = (n + 1) / 2 + 1 := by omega
      rw [hhalf, List.take_succ_cons, ← ih]
      rfl

/-- INIT claims in its step 1 alone, one signal with every second primitive (R132, R143). -/
theorem claimOf_take_initProgram (m : Mode) (n : Nat) :
    ((initProgram m).take n).filterMap claimOf = (drv m).take ((n + 1) / 2) := by
  obtain ⟨rest, hprog, hrest⟩ : ∃ rest, initProgram m = claimPrims m ++ rest ∧
      ∀ p ∈ rest, claimOf p = none :=
    ⟨_, initProgram_eq m, List.filterMap_eq_nil_iff.mp (by cases m <;> rfl)⟩
  rw [hprog, List.take_append, List.filterMap_append, claimPrims, claimOf_take_claims,
    List.filterMap_eq_nil_iff.mpr fun p hp => hrest p (List.mem_of_mem_take hp), List.append_nil]

/-- Of the events of a failing INIT exactly the releases are releases. -/
theorem length_filter_isRel (s : State) (ps : List Prim) (p : Prim) (rs : List PinId) :
    ((ps.map (eventOf s .ok) ++ ([eventOf s .failed p] ++ rs.map Event.rel)).filter isRel).length =
      rs.length := by
  simp [List.filter_map, Function.comp_def]

/-- Settles O37: a failure at place `n` releases one pin for every second primitive up to it, as far as step 1 goes. -/
theorem failedInitReleaseCount : Obligations.FailedInitReleaseCount := by
  intro s n p hp hv hclaimed h
  have htrace := initRequest_trace_of_firstFails hp hv h
  rw [hclaimed, List.nil_append, claimOf_take_initProgram, List.append_assoc, List.append_assoc]
    at htrace
  refine ⟨_, _, rfl, htrace, ?_, fun k sg hk hn _ => ?_, fun hn => ?_⟩
  · rw [initRequest_of_firstFails hp hv h]; rfl
  all_goals rw [length_filter_isRel, List.length_map, List.length_take]
  · have hlt : k < (drv s.mode).length := (List.getElem?_eq_some_iff.mp hk).1
    omega
  · omega

/-! ### TEARDOWN (R144, R145) -/

/-- Settles O39: a READY block releases its claims; elsewhere only PHASE and RESULT are written. -/
theorem teardownReleasesEveryClaim : Obligations.TeardownReleasesEveryClaim := by
  refine ⟨fun s hp => ?_, fun s hp => ?_⟩
  · obtain ⟨lv, hrelease, hlevels⟩ := releaseAll_spec s
    refine ⟨lv, congrArg Host.Outcome.next ?_, hlevels⟩
    simp only [teardownRequest, hp, if_true, hrelease]
    rfl
  · refine congrArg Host.Outcome.next ?_
    simp only [teardownRequest, hp, if_false]
    rfl

end Sys2Proof.Machine

namespace Sys2Proof.Machine

open Sys2Proof.Safety

/-! ### A class's byte as a SEND_CMD, and the position byte (R172 to R181, C1) -/

/-- Settles O6: a class is the SEND of the byte it carries, which is the byte that encodes it. -/
theorem classBytesMatchTheirWords : Obligations.ClassBytesMatchTheirWords := by
  intro i b hi
  have hclass : carriedByte i = some (b, false) := carriedByte_of_encode_cmd8 hi
  have hsend : carriedByte (.sendCmd b) = some (b, false) := rfl
  exact ⟨hclass, fun s => (exec_of_carriedByte s hclass).trans (exec_of_carriedByte s hsend).symm⟩

/-- A column up to 0x3F lies below the two bits of a row's base, so OR-ing it in adds it (C1). -/
theorem or_column_eq_add (row : BitVec 2) {x : Nat} (hx : x ≤ 0x3F) :
    (row ++ 0#6) ||| BitVec.ofNat 8 x = (row ++ 0#6) + BitVec.ofNat 8 x := by
  have hcolumn : (BitVec.ofNat 6 x).setWidth 8 = BitVec.ofNat 8 x :=
    BitVec.setWidth_ofNat_of_le_of_lt (by decide) (by omega)
  rw [← hcolumn, ← append_eq_or, BitVec.setWidth_eq_append (by decide)]
  exact BitVec.append_zero_add_zero_append.symm

/-- Settles O9: on its range the position byte is the row's base OR the column, which is their sum. -/
theorem positionByteOnItsRange : Obligations.PositionByteOnItsRange := by
  intro x hx
  have hrow0 : positionByte 0x80#8 x 0 = some (0x80#8 ||| BitVec.ofNat 8 x) := by
    simp [positionByte, hx]
  have hrow1 : positionByte 0x80#8 x 1 = some (0xC0#8 ||| BitVec.ofNat 8 x) := by
    simp [positionByte, hx]
  exact ⟨hrow0, hrow0.trans (congrArg some (or_column_eq_add 0b10#2 hx)),
    hrow1, hrow1.trans (congrArg some (or_column_eq_add 0b11#2 hx))⟩

end Sys2Proof.Machine

namespace Sys2Proof.Machine

open Sys2Proof.Safety

/-! ### What a failure result points at (R200 to R202) -/

/-- `j` is the TRACE index of an event that came after `s`, is in `t`, and failed with the kind `k`. -/
def NamesFailure (s t : State) (k : ErrKind) (j : Nat) : Prop :=
  s.trace.length < j ∧
    match k with
    | .configurationError => ∃ p, t.trace[j - 1]? = some (.cfg p .failed)
    | .ioError => ∃ p d, t.trace[j - 1]? = some (.wr p d .failed)

/-- The index and the kind a run fails with name its failing primitive, whatever is appended to TRACE afterwards. -/
theorem namesFailure_of_firstFails {ps : List Prim} {n : Nat} {p : Prim} {s t : State}
    (h : FirstFails ps n p s) (ht : (failPrim p (okRun (ps.take n) s)).trace <+: t.trace) :
    NamesFailure s t (failureOf p) (s.trace.length + n + 1) := by
  obtain ⟨hlt, hlast⟩ := List.getElem?_eq_some_iff.mp (trace_of_firstFails h).2
  have hevent : t.trace[s.trace.length + n]? = some (eventOf s .failed p) :=
    (List.prefix_iff_getElem?.mp ht _ hlt).trans (congrArg some hlast)
  obtain ⟨-, -, hasks, -⟩ := h
  refine ⟨by omega, ?_⟩
  cases p with
  | cfg sg => exact ⟨_, hevent⟩
  | wr sg d => exact ⟨_, _, hevent⟩
  | hold => cases hasks

/-- Of all the cases of INIT only the abort answers InitError, and its releases come after the failure (R142). -/
theorem namesFailure_of_initRequest {s : State} {k : ErrKind} {j : Nat}
    (h : (initRequest cmdvTable s).result = some (.initError k j)) :
    NamesFailure s (initRequest cmdvTable s) k j := by
  obtain ⟨-, hr⟩ | ⟨-, -, hr⟩ | ⟨-, -, -, hr⟩ | ⟨-, -, n, p, hfirst, hr⟩ := initRequest_cases s <;>
    rw [hr] at h ⊢ <;> cases h
  exact namesFailure_of_firstFails hfirst (by simp)

/-- Of all the cases of a SEND only the failed transfer answers IOError (R208). -/
theorem namesFailure_of_sendRequest {v : Byte} {asData : Bool} {s : State} {j : Nat}
    (h : (sendRequest v asData s).result = some (.ioError j)) :
    NamesFailure s (sendRequest v asData s) .ioError j := by
  obtain ⟨-, hr⟩ | ⟨-, -, hr⟩ | ⟨-, n, p, hfirst, hr⟩ := sendRequest_cases v asData s <;>
    rw [hr] at h ⊢ <;> cases h
  rw [← failureOf_sendBytePrims (mem_of_firstFails hfirst)]
  exact namesFailure_of_firstFails hfirst List.prefix_rfl

theorem sendRequest_result_ne_initError (v : Byte) (asData : Bool) (s : State) (k : ErrKind) (j : Nat) :
    (sendRequest v asData s).result ≠ some (.initError k j) := by
  obtain ⟨-, hr⟩ | ⟨-, -, hr⟩ | ⟨-, n, p, -, hr⟩ := sendRequest_cases v asData s <;> simp [hr]

theorem initRequest_result_ne_ioError (s : State) (j : Nat) :
    (initRequest cmdvTable s).result ≠ some (.ioError j) := by
  obtain ⟨-, hr⟩ | ⟨-, -, hr⟩ | ⟨-, -, -, hr⟩ | ⟨-, -, n, p, -, hr⟩ := initRequest_cases s <;> simp [hr]

theorem teardownRequest_result (s : State) : (teardownRequest s).result = some .ok := rfl

/-- InitError is an answer of INIT alone. -/
theorem namesFailure_of_initError {i : Instr} {s t : State} {k : ErrKind} {j : Nat}
    (h : exec i s = .next t) (ht : t.result = some (.initError k j)) :
    i = .init ∧ NamesFailure s t k j := by
  obtain ⟨hi, he⟩ | ⟨-, he⟩ | ⟨v, asData, -, he⟩ := exec_cases i s <;> cases he.symm.trans h
  · exact ⟨hi, namesFailure_of_initRequest ht⟩
  · rw [teardownRequest_result] at ht; cases ht
  · exact absurd ht (sendRequest_result_ne_initError v asData s k j)

/-- The plain IOError is an answer of the requests that carry a byte alone. -/
theorem namesFailure_of_ioError {i : Instr} {s t : State} {j : Nat}
    (h : exec i s = .next t) (ht : t.result = some (.ioError j)) :
    carriedByte i ≠ none ∧ NamesFailure s t .ioError j := by
  obtain ⟨-, he⟩ | ⟨-, he⟩ | ⟨v, asData, hb, he⟩ := exec_cases i s <;> cases he.symm.trans h
  · exact absurd ht (initRequest_result_ne_ioError s j)
  · rw [teardownRequest_result] at ht; cases ht
  · exact ⟨by simp [hb], namesFailure_of_sendRequest ht⟩

/-- Settles O50: a result that reports a failure carries the index and the kind of its run's failing primitive. -/
theorem failureResultsNameTheirPrimitive : Obligations.FailureResultsNameTheirPrimitive :=
  fun _ _ _ _ h =>
    ⟨namesFailure_of_initError h, namesFailure_of_initError h, namesFailure_of_ioError h⟩

/-! ### Refusals (R204, R210) -/

/-- A control code from 2 up asks for no request (R72). -/
theorem requestOf_of_reserved {w : ReqBits} (hlow : 2 ≤ w.toNat) (hhigh : w.toNat ≤ 0x1FF) :
    requestOf (.req10 w) = none := by
  have hd : decodeReq10 w = .reservedRequest w :=
    decodeReq10_eq_reserved_iff.mpr ⟨hlow, Nat.lt_succ_of_le hhigh⟩
  rw [requestOf, decode, hd]

/-- Settles O27: every refusal is decided before any primitive and sets RESULT alone. -/
theorem refusalsChangeOnlyResult : Obligations.RefusalsChangeOnlyResult := by
  refine ⟨fun s hp => ?_, fun s hp hv => ?_, fun i v asData s hb hp => ?_,
    fun s w rest hq hlow hhigh => ?_⟩
  · exact congrArg Host.Outcome.next (initRequest_of_notUninit cmdvTable hp)
  · exact congrArg Host.Outcome.next (initRequest_of_invalid cmdvTable hp hv)
  · rw [exec_of_carriedByte s hb, sendRequest_of_notReady v asData hp]
    rfl
  · exact step_of_reserved hq (requestOf_of_reserved hlow hhigh)

end Sys2Proof.Machine

namespace Sys2Proof.Machine

open Sys2Proof.Safety

/-! ### The levels after a failing INIT (R29, R142, R232) -/

/-- From X levels, the lines INIT's run has driven when it fails are driven signals on pins it has claimed, and the abort
releases those. -/
theorem initRequest_levels_of_firstFails {s : State} {n : Nat} {p : Prim} (hp : s.phase = .uninit)
    (hv : validPinMap s.pinmap s.mode = true) (hlevels : s.levels = Levels.allUnknown)
    (h : FirstFails (initProgram s.mode) n p s) :
    (initRequest cmdvTable s).levels = Levels.allUnknown := by
  have hdriven := (DrivenOnly.runPrims (onDriven_initProgram s.mode)).levels
  have hknown : KnownAreClaimed (runPrims (initProgram s.mode) s).state :=
    knownAreClaimed_runPrims (fun sg hk => absurd (by simp [hlevels]) hk)
      (claimsBeforeWrites_initProgram s.mode)
  rw [runPrims_state_of_firstFails h] at hdriven hknown
  rw [initRequest_of_firstFails hp hv h]
  refine releaseAll_forgets fun sg hk => ⟨?_, hknown sg hk⟩
  by_contra hsg
  rw [failPrim_mode, okRun_mode] at hsg
  exact hk (by simp [hdriven sg hsg, hlevels])

/-- Settles O36: what every failing INIT leaves, and, from X levels, X levels again; CURSOR is kept. -/
theorem failedInitLeavesNothing : Obligations.FailedInitLeavesNothing := by
  intro s n p hp hv _ hlevels hcursor h
  obtain ⟨t, hexec, hphase, hseq, hclaimed, hkept, -, hresult, -⟩ :=
    failedInitReleasesEveryClaim s n p hp hv h
  obtain rfl : initRequest cmdvTable s = t := Host.Outcome.next.inj hexec
  exact ⟨_, hexec, hphase, hseq, hclaimed, initRequest_levels_of_firstFails hp hv hlevels h,
    hkept.trans hcursor, hresult⟩

/-! ### The time the holds take (R251, R252) -/

/-- At 1 ms a hold (D9), the holds' time is their number. -/
theorem holdTimeMs_eq_length (evs : List Event) : holdTimeMs evs = (evs.filter isHold).length :=
  Nat.mul_one _

theorem holdTimeMs_rel (ps : List PinId) : holdTimeMs (ps.map Event.rel) = 0 := by
  simp [holdTimeMs, isHold, List.filter_eq_nil_iff]

/-- TEARDOWN adds nothing to TRACE but releases (R144). -/
theorem teardownRequest_trace (s : State) :
    ∃ ps : List PinId, (teardownRequest s).trace = s.trace ++ ps.map Event.rel := by
  obtain ⟨-, hr⟩ | ⟨-, hr⟩ := teardownRequest_cases s
  · exact ⟨s.claimed, by simp [hr]⟩
  · exact ⟨[], by simp [hr]⟩

/-- Settles O52: the holds of a strobe are counted on its events, those of a SEND and of INIT in R108's and R147's
counts, and a release is no hold. -/
theorem holdTimeLowerBounds : Obligations.HoldTimeLowerBounds := by
  refine ⟨fun s hok => ?strobe, fun i v asData s hb hp hok => ?send, fun s hp hv hok => ?init,
    fun s => ?teardown⟩
  case strobe => exact ⟨_, _, runPrims_ok hok, okRun_trace _ s, rfl⟩
  case send =>
    obtain ⟨t, evs, ls, hexec, -, htrace, -, height, hfour⟩ := byteTransferCounts i v asData s hb hp hok
    refine ⟨t, evs, hexec, htrace, ?_⟩
    rw [holdTimeMs_eq_length]
    cases hm : s.mode with
    | eightBit => obtain ⟨-, hholds, -⟩ := height hm; exact hholds
    | fourBit => obtain ⟨-, hholds, -⟩ := hfour hm; exact hholds
  case init =>
    obtain ⟨t, evs, hexec, htrace, -, hfour, height⟩ := initEventCounts s hp hv hok
    refine ⟨t, evs, hexec, htrace, ?_⟩
    rw [holdTimeMs_eq_length]
    cases hm : s.mode with
    | eightBit => obtain ⟨-, -, hholds, -⟩ := height hm; exact hholds
    | fourBit => obtain ⟨-, -, hholds, -⟩ := hfour hm; exact hholds
  case teardown =>
    obtain ⟨ps, htrace⟩ := teardownRequest_trace s
    exact ⟨_, _, rfl, htrace, holdTimeMs_rel ps⟩

end Sys2Proof.Machine
